-- ==== Sys2Proof/Word.lean ====
section
/-! DEFINITION. The character of the site line and the fourfold record used for the feeders and the tariff bands. -/

namespace Sys2Proof

/-- One character of the site line, or one byte of the configuration image. -/
abbrev Byte := BitVec 8

/-- One of the four feeders of a cell (also: one of the four tariff bands). -/
inductive FeederId where
  | f1 | f2 | f3 | f4
deriving DecidableEq, Repr

/-- A value for each of four like things, 1 to 4. -/
structure Quad (α : Type) where
  q1 : α
  q2 : α
  q3 : α
  q4 : α
deriving DecidableEq, Repr

namespace Quad

/-- The value of thing `i`. -/
def get {α : Type} (q : Quad α) : FeederId → α
  | .f1 => q.q1
  | .f2 => q.q2
  | .f3 => q.q3
  | .f4 => q.q4

/-- The same four values with that of thing `i` replaced. -/
def put {α : Type} (q : Quad α) (i : FeederId) (a : α) : Quad α :=
  match i with
  | .f1 => { q with q1 := a }
  | .f2 => { q with q2 := a }
  | .f3 => { q with q3 := a }
  | .f4 => { q with q4 := a }

/-- Four times the same value. -/
def all {α : Type} (a : α) : Quad α := ⟨a, a, a, a⟩

/-- A function applied to each of the four. -/
def map {α β : Type} (g : α → β) (q : Quad α) : Quad β := ⟨g q.q1, g q.q2, g q.q3, g q.q4⟩

/-- The four values built from their indexes. -/
def ofFn {α : Type} (g : FeederId → α) : Quad α := ⟨g .f1, g .f2, g .f3, g .f4⟩

@[simp] theorem get_put_same {α : Type} (q : Quad α) (i : FeederId) (a : α) :
    (q.put i a).get i = a := by cases i <;> rfl

@[simp] theorem get_put_other {α : Type} (q : Quad α) {i j : FeederId} (a : α) (h : j ≠ i) :
    (q.put i a).get j = q.get j := by cases i <;> cases j <;> first | rfl | exact absurd rfl h

@[simp] theorem get_all {α : Type} (a : α) (i : FeederId) : (all a).get i = a := by cases i <;> rfl

@[simp] theorem get_map {α β : Type} (g : α → β) (q : Quad α) (i : FeederId) :
    (q.map g).get i = g (q.get i) := by cases i <;> rfl

@[simp] theorem get_ofFn {α : Type} (g : FeederId → α) (i : FeederId) : (ofFn g).get i = g i := by
  cases i <;> rfl

end Quad

namespace FeederId

/-- The feeder index 1 to 4. -/
def index : FeederId → Nat
  | .f1 => 1
  | .f2 => 2
  | .f3 => 3
  | .f4 => 4

/-- The four in ascending index. -/
def every : List FeederId := [.f1, .f2, .f3, .f4]

end FeederId

end Sys2Proof
end

