-- ==== Sys2Proof/Syntax.lean ====
section
/-! DEFINITION. The commands that reach the part, one constructor per row of spec/opcode_table.json, with their operands. -/

namespace Sys2Proof

/-- The eight pulse channels (Table 1-1). -/
inductive Channel where
  | se | bf | ff | lp
  | f (n : FeederId)
deriving DecidableEq, Repr

/-- The contact inputs (Table 1-2). -/
inductive Input where
  | running | ready | brk | fault | busLive | syncOk
  | ffb (n : FeederId)
  | fillKey | highLevel | showSwitch | lock
deriving DecidableEq, Repr

/-- The devices with a contrary pair of command outputs (Table 1-3): START/STOP, CLOSE/TRIP, FONn/FOFFn. -/
inductive Device where
  | genset
  | breaker
  | feeder (n : FeederId)
deriving DecidableEq, Repr

/-- The retained records (Table 10-3). -/
inductive RecordId where
  | fuelBook | shrink | interval | rate
  | slot (i : Fin 8)
  | journal | postingNumber | clockFloor
deriving DecidableEq, Repr

/-- The addressing part of a received frame's header (Table 9-1): from, group, to. -/
structure Header where
  sender : Byte
  group  : Byte
  dest   : Byte
deriving DecidableEq, Repr

/-- The levels of the contact inputs: active, or on, is `true`. -/
structure Levels where
  running    : Bool
  ready      : Bool
  brk        : Bool
  fault      : Bool
  busLive    : Bool
  syncOk     : Bool
  ffb        : Quad Bool
  fillKey    : Bool
  highLevel  : Bool
  showSwitch : Bool
  lock       : Bool
deriving DecidableEq, Repr

/-- No input active. -/
def Levels.inactive : Levels :=
  { running := false, ready := false, brk := false, fault := false, busLive := false, syncOk := false,
    ffb := Quad.all false, fillKey := false, highLevel := false, showSwitch := false, lock := false }

/-- An event that falls inside a start (R177): a pulse, a contact change, a received frame. -/
inductive StartEvent where
  | pulse (c : Channel) (gap active : Nat)
  | change (i : Input) (level : Bool) (held : Nat)
  | frame (h : Header) (kind : Byte) (payload : List Byte)
deriving DecidableEq, Repr

/-- What one run of the start order finds: the image the configuration memory answers with, the levels sampled at
step 5, the events that fall after step `n` of it (`(n, event)`, in order), and the step after which the start is
abandoned, when RESET or the supply cuts it off (R177). -/
structure StartInputs where
  image        : List Byte
  levels       : Levels
  during       : List (Nat × StartEvent)
  abandonAfter : Option Nat
deriving DecidableEq, Repr

/-- The commands.  The word after each is its row's mnemonic in spec/opcode_table.json. -/
inductive Instr where
  | powerOn (inp : StartInputs)                                    -- POWER_ON
  | resetInput (inp : StartInputs)                                 -- RESET_INPUT
  | powerFail                                                      -- POWER_FAIL
  | pulseAccepted (c : Channel) (gap active : Nat)                 -- PULSE_ACCEPTED
  | retainedWriteComplete (r : RecordId)                           -- RETAINED_WRITE_COMPLETE
  | windowExpiry (c : Channel)                                     -- WINDOW_EXPIRY
  | inputChange (i : Input) (level : Bool) (held : Nat)            -- INPUT_CHANGE
  | pulseEnd (d : Device)                                          -- PULSE_END
  | confirmLimitExpiry (d : Device)                                -- CONFIRM_LIMIT_EXPIRY
  | heartbeatExpiry                                                -- HEARTBEAT_EXPIRY
  | stateReceived (h : Header) (payload : List Byte)               -- STATE_RECEIVED
  | peerAgeExpiry (station : Nat)                                  -- PEER_AGE_EXPIRY
  | runSecond                                                      -- RUN_SECOND
  | secondTimerExpiry                                              -- SECOND_TIMER_EXPIRY
  | timeSet (h : Header) (tag : Byte) (params : List Byte)         -- TIME_SET
  | startTimerExpiry                                               -- START_TIMER_EXPIRY
  | cooldownExpiry                                                 -- COOLDOWN_EXPIRY
  | stopRepeatExpiry                                               -- STOP_REPEAT_EXPIRY
  | rampSecond                                                     -- RAMP_SECOND
  | rampTimerExpiry                                                -- RAMP_TIMER_EXPIRY
  | joinTimerExpiry                                                -- JOIN_TIMER_EXPIRY
  | startDwellExpiry                                               -- START_DWELL_EXPIRY
  | startIntentReceived (h : Header) (payload : List Byte)         -- START_INTENT_RECEIVED
  | stopDwellExpiry                                                -- STOP_DWELL_EXPIRY
  | stopIntentReceived (h : Header) (payload : List Byte)          -- STOP_INTENT_RECEIVED
  | intentHoldExpiry                                               -- INTENT_HOLD_EXPIRY
  | deadbusTimerExpiry                                             -- DEADBUS_TIMER_EXPIRY
  | escalationExpiry                                               -- ESCALATION_EXPIRY
  | deadbusClaimReceived (h : Header) (payload : List Byte)        -- DEADBUS_CLAIM_RECEIVED
  | claimHoldExpiry                                                -- CLAIM_HOLD_EXPIRY
  | claimWaitExpiry                                                -- CLAIM_WAIT_EXPIRY
  | handoverRequest (h : Header) (tag : Byte) (params : List Byte) -- HANDOVER_REQUEST
  | handoverAbort (h : Header) (tag : Byte) (params : List Byte)   -- HANDOVER_ABORT
  | callReceived (h : Header) (payload : List Byte)                -- CALL_RECEIVED
  | offerReceived (h : Header) (payload : List Byte)               -- OFFER_RECEIVED
  | pickReceived (h : Header) (payload : List Byte)                -- PICK_RECEIVED
  | readyReceived (h : Header) (payload : List Byte)               -- READY_RECEIVED
  | stepReceived (h : Header) (payload : List Byte)                -- STEP_RECEIVED
  | endReceived (h : Header) (payload : List Byte)                 -- END_RECEIVED
  | abortReceived (h : Header) (payload : List Byte)               -- ABORT_RECEIVED
  | holdReceived (h : Header) (payload : List Byte)                -- HOLD_RECEIVED
  | offerWindowExpiry                                              -- OFFER_WINDOW_EXPIRY
  | offerTimerExpiry                                               -- OFFER_TIMER_EXPIRY
  | retryWaitExpiry                                                -- RETRY_WAIT_EXPIRY
  | prepareLimitExpiry                                             -- PREPARE_LIMIT_EXPIRY
  | prepareTimeoutExpiry                                           -- PREPARE_TIMEOUT_EXPIRY
  | gapLimitExpiry                                                 -- GAP_LIMIT_EXPIRY
  | endWaitExpiry                                                  -- END_WAIT_EXPIRY
  | confirmWindowExpiry                                            -- CONFIRM_WINDOW_EXPIRY
  | settleHoldExpiry                                               -- SETTLE_HOLD_EXPIRY
  | restoreSpacingExpiry                                           -- RESTORE_SPACING_EXPIRY
  | scSecondTimer                                                  -- SC_SECOND_TIMER
  | reconciliationTimerExpiry                                      -- RECONCILIATION_TIMER_EXPIRY
  | reconcile (h : Header) (tag : Byte) (params : List Byte)       -- RECONCILE
  | tankQuery (h : Header) (tag : Byte) (params : List Byte)       -- TANK_QUERY
  | deliveryOpen (h : Header) (payload : List Byte)                -- DELIVERY_OPEN
  | deliveryClose (h : Header) (payload : List Byte)               -- DELIVERY_CLOSE
  | deliveryRecordExpiry                                           -- DELIVERY_RECORD_EXPIRY
  | claimRepeatExpiry                                              -- CLAIM_REPEAT_EXPIRY
  | visit (h : Header) (payload : List Byte)                       -- VISIT
  | visitEnd (h : Header) (payload : List Byte)                    -- VISIT_END
  | flowStallExpiry                                                -- FLOW_STALL_EXPIRY
  | pauseTimerExpiry                                               -- PAUSE_TIMER_EXPIRY
  | costReceived (h : Header) (payload : List Byte)                -- COST_RECEIVED
  | statementClose (h : Header) (tag : Byte) (params : List Byte)  -- STATEMENT_CLOSE
  | accountQuery (h : Header) (tag : Byte) (params : List Byte)    -- ACCOUNT_QUERY
  | statementQuery (h : Header) (tag : Byte) (params : List Byte)  -- STATEMENT_QUERY
  | journalQuery (h : Header) (tag : Byte) (params : List Byte)    -- JOURNAL_QUERY
  | unknownToolCommand (h : Header) (subKind tag : Byte) (params : List Byte) -- UNKNOWN_TOOL_COMMAND
  | restart (h : Header) (tag : Byte) (params : List Byte)         -- RESTART
  | restartHandover (inp : StartInputs)                            -- RESTART_HANDOVER
  | frameDiscarded (first following : List Bool)                   -- FRAME_DISCARDED
  | accessWaitComplete                                             -- ACCESS_WAIT_COMPLETE
  | frameSent                                                      -- FRAME_SENT
  | collision (place : Nat := 0) (readback : List Bool := [])      -- COLLISION
  | backoffExpiry                                                  -- BACKOFF_EXPIRY
  | lineStartBit                                                   -- LINE_START_BIT
deriving DecidableEq, Repr

end Sys2Proof
end

