-- ==== Sys2Proof/Config.lean ====
section
/-! DEFINITION. The free values: what the manual leaves open although the part goes on. None has a body, so no proof can lean on a value. -/

namespace Sys2Proof.Config

/-- Seed of the backoff sequence's 16-bit register, taken from the station number; the value is not specified (R170,
log 17). -/
opaque prngSeed : Nat → BitVec 16

/-- The register after the `n`-th draw; the sequence "is not otherwise specified" (R170, log 17). -/
opaque prngNext : Nat → BitVec 16 → BitVec 16

/-- The `n`-th draw from the register; Machine/Ops.lean brings it into 1 to 16 (R170, log 17). -/
opaque prngDraw : Nat → BitVec 16 → Nat

/-- Remaining seconds of a running reconciliation timer at the `n`-th answer, before the bound 120 (R126, log 18). -/
opaque reconRemaining : Nat → Nat

/-- What an undefined readiness code is taken as: READY or not (R167, log 16). -/
opaque undefinedReadiness : Byte → Bool

/-- What an undefined mode code is taken as: CLOSED or not (R167, log 16). -/
opaque undefinedMode : Byte → Bool

/-- What an undefined step code is taken as: 1, 2 or 3 name the steps of Table 9-3, anything else no step (R167, log 16). -/
opaque undefinedStep : Byte → Nat

/-- The byte sent for an account status: 0 LIVE, 1 DORMANT, 2 DAMAGED-REOPENED (R158 names no code, log 19). -/
opaque accountStatusCode : Fin 3 → Byte

/-- The byte sent for a reconciliation origin: AFTER VISIT (`false`) or TOOL (`true`); none is sent as 0xFF (Table 6-4
names no code, R167, log 19). -/
opaque reconOriginCode : Bool → Byte

/-- The byte sent for a reconciliation action: 0 NONE, 1 SHRINK, 2 GAIN (Table 6-4 names no code, log 19). -/
opaque reconActionCode : Fin 3 → Byte

/-- The mark sent when the burn rate for H is the BF figure (`true`) or the standby rate (`false`) (Table 6-5, log 19). -/
opaque burnRateMark : Bool → Byte

/-- The END outcome code sent when a set left the bus in PARALLEL before any TRIP was issued: 1 to 4 name the outcomes
of Table 9-3, anything else FAULT's (R75 states none, log 23). -/
opaque unstatedOutcome : Nat → Nat

end Sys2Proof.Config
end

