-- ==== Sys2Proof/Machine/State.lean ====
section
/-! DEFINITION. The state of the part, unit by unit, the reports the units hand each other, the outcomes' reasons, and the state before the first power-on. -/

namespace Sys2Proof.Machine

/-- A timer: stopped, or running with the length it was started with (milliseconds; character times for the line's two
waits).  The passage of time is not modelled (log 5). -/
abbrev Timer := Option Nat

/-- Where the part stands (R176 to R178): without power, inside a start whose last completed step is `step`, running
since the end of start-up, or halted after step 2 by an unusable image. -/
inductive Phase where
  | off
  | starting (step : Nat)
  | running
  | unusable
deriving DecidableEq, Repr

/-! ### Configuration -/

/-- Feeder classes (5.2). -/
inductive FeederClass where
  | showClass | vendor | amenity | protectedClass
deriving DecidableEq, Repr

/-- The configured class order, lowest priority first (R89). -/
structure ClassOrder where
  lowest  : FeederClass
  middle  : FeederClass
  highest : FeederClass
deriving DecidableEq, Repr

/-- Configured scaling of a pulse channel (1.1): window in seconds, minimum width in 0.01 ms. -/
structure ChanCfg where
  prescale : Nat
  weight   : Nat
  window   : Nat
  minWidth : Nat
deriving DecidableEq, Repr

/-- A tariff band (Table 8-2). -/
structure Band where
  inUse : Bool
  start : Nat
  m     : Nat
  s     : Nat
  h     : Nat
  g     : Nat
deriving DecidableEq, Repr

/-- The configuration held since the last load (Table 9-14 after R179). -/
structure Cfg where
  station     : Nat
  group       : Nat
  setFitted   : Bool
  tankFitted  : Bool
  closedCap   : Bool
  fitted      : Quad Bool
  heartbeat   : Nat
  rating      : Nat
  capacity    : Nat
  fE          : Nat
  fF          : Nat
  se          : ChanCfg
  bf          : ChanCfg
  ff          : ChanCfg
  lp          : ChanCfg
  f           : Quad ChanCfg
  startThr    : Nat
  stopThr     : Nat
  startDwell  : Nat
  stopDwell   : Nat
  cooldown    : Nat
  rampRate    : Nat
  overload    : Nat
  restore     : Nat
  low         : Nat
  critical    : Nat
  tolerance   : Nat
  claimThr    : Nat
  fillLimit   : Nat
  standby     : Nat
  intervalLen : Nat
  order       : ClassOrder
  tenant      : Quad Nat
  cls         : Quad FeederClass
  bands       : Quad Band
  aux         : List (BitVec 6)
deriving DecidableEq, Repr

/-! ### Pulse Channel Unit -/

/-- A pulse channel (1.1).  `figure` is the window figure in kW or dL/h; LP's is `Pcu.level`.  `period` is the width so
far, in hundredths of a millisecond, of an active period that has made no pulse yet (R1, log 13). -/
structure Chan where
  period    : Option Nat
  remainder : Nat
  total     : BitVec 32
  count     : Nat
  latched   : Nat
  figure    : Nat
deriving DecidableEq, Repr

/-- The Pulse Channel Unit.  `level` is the probe level P, or none while LP offers no level (R7). -/
structure Pcu where
  se    : Chan
  bf    : Chan
  ff    : Chan
  lp    : Chan
  f     : Quad Chan
  level : Option Nat
deriving DecidableEq, Repr

/-! ### Field Line Interface -/

/-- One of the two contrary commands of a device: `on` is START, CLOSE or FON; `off` is STOP, TRIP or FOFF. -/
inductive Sense where
  | on | off
deriving DecidableEq, Repr

/-- A device's running pulse, deferred command and running confirm (R10, R11). -/
structure Dev where
  pulse    : Option Sense
  deferred : Option Sense
  confirm  : Option Sense
deriving DecidableEq, Repr

/-- The Field Line Interface.  `kept`: the input changes of a start, from step 5 on, the first one first (R177). -/
structure Fli where
  inputs      : Levels
  genset      : Dev
  breaker     : Dev
  feeder      : Quad Dev
  valve       : Bool
  aux         : BitVec 6
  breakerFail : Bool
  kept        : List (Input × Bool)
deriving DecidableEq, Repr

/-! ### Peer Table -/

/-- Set states (Table 3-1). -/
inductive SetState where
  | stopped | cranking | warming | ready | onbus | rampdown | cooling | fault
deriving DecidableEq, Repr

/-- Handover states (Table 4-1). -/
inductive Handover where
  | idle | hold | call | offered | prepare | parallel | deadbus | release
deriving DecidableEq, Repr

/-- Fuel threshold states (6.5). -/
inductive Threshold where
  | normal | low | critical
deriving DecidableEq, Repr

/-- The fields of a peer's STATE frame after clamping (Tables 2-1 and 2-3). -/
structure PeerFields where
  setFitted  : Bool
  tankFitted : Bool
  closedCap  : Bool
  heartbeat  : Nat
  setState   : SetState
  onBus      : Bool
  rating     : Nat
  output     : Nat
  share      : Nat
  hours      : Nat
  threshold  : Threshold
  runHours   : Nat
  showInput  : Bool
  handover   : Handover
  partner    : Nat
  shedClass  : Option FeederClass
  shedCount  : Nat
  clock      : Nat
  clockValid : Bool
  alerts     : BitVec 4
deriving DecidableEq, Repr

/-- A peer entry: station number, fields, age timer length (R23, R25). -/
structure PeerEntry where
  station : Nat
  fields  : PeerFields
  age     : Nat
deriving DecidableEq, Repr

/-- The group figures (Table 2-4). -/
structure Figures where
  capacity        : Nat
  load            : Nat
  releasing       : Nat
  carrying        : Nat
  peersOnBus      : Nat
  showActive      : Bool
  handoverInGroup : Bool
  lowestShed      : Option FeederClass
deriving DecidableEq, Repr

/-- The Peer Table with the site clock. -/
structure Pt where
  entries    : List PeerEntry
  tableFull  : Bool
  figs       : Figures
  heartbeat  : Timer
  clock      : Nat
  clockValid : Bool
  floor      : Nat
  second     : Timer
  runSeconds : Nat
deriving DecidableEq, Repr

/-! ### Dispatch Unit -/

/-- What brought the set out of STOPPED (3.1). -/
inductive Origin where
  | dispatch | recovery | call | hand
deriving DecidableEq, Repr

/-- Fault causes (3.1). -/
inductive FaultCause where
  | faultInput | startFail | closeFail | tripFail | runLost
deriving DecidableEq, Repr

/-- The mode of a join request (R49). -/
inductive JoinMode where
  | bySync | byClaim
deriving DecidableEq, Repr

/-- A dwell timer: off, running, or held with the time already run (R50, R54). -/
inductive Dwell where
  | off
  | running (ms : Nat)
  | held (ms : Nat)
deriving DecidableEq, Repr

/-- The keys a START INTENT or DEADBUS CLAIM carries (R52, R57): readiness and hours-to-dry. -/
structure Keys where
  ready : Bool
  hours : Nat
deriving DecidableEq, Repr

/-- How far a dead-bus recovery has come since the dead-bus timer expired (R56): none under way, waiting for the own
set to be eligible, waiting for the escalation timer, or the requests made. -/
inductive Recovery where
  | none | noPart | escalating | requested
deriving DecidableEq, Repr

/-- The Dispatch Unit. -/
structure Du where
  state       : SetState
  breaker     : Bool
  origin      : Option Origin
  cause       : Option FaultCause
  join        : Option JoinMode
  share       : Nat
  shareArmed  : Bool
  tripIssued  : Bool
  heldStart   : Option Origin
  startTimer  : Timer
  cooldown    : Timer
  ramp        : Timer
  joinTimer   : Timer
  stopRepeat  : Timer
  startDwell  : Dwell
  stopDwell   : Dwell
  startIntent : Option Keys
  stopIntent  : Option Nat
  intentHold  : Timer
  deadBus     : Timer
  recovery    : Recovery
  escalation  : Timer
  claim       : Option Keys
  claimHold   : Timer
  rival       : Option Nat
  claimWait   : Timer
  heldSe      : BitVec 32
deriving DecidableEq, Repr

/-! ### Changeover Controller -/

/-- Handover causes (Table 4-3). -/
inductive Cause where
  | scheduled | fuelLow | fuelCritical
deriving DecidableEq, Repr

/-- The kind of transition (4.4). -/
inductive Mode where
  | open' | closed'
deriving DecidableEq, Repr

/-- END outcomes (Table 4-4). -/
inductive EndOutcome where
  | normal | forced | abandoned | fault
deriving DecidableEq, Repr

/-- Steps of a STEP frame (Table 4-4). -/
inductive StepKind where
  | closed' | opening | opened
deriving DecidableEq, Repr

/-- ABORT reasons (Table 4-6). -/
inductive AbortReason where
  | notAvailable | startFail | joinFail | gap | offBus | tripFail | timeout | tool | withdrawn
deriving DecidableEq, Repr

/-- An entry of the offer list (R69). -/
structure Offer where
  station   : Nat
  hours     : Nat
  ready     : Bool
  rating    : Nat
  closedCap : Bool
deriving DecidableEq, Repr

/-- The call record (4.1), with the incoming set noted ready (R73), the ramp's recorded outcome and the loss of the
partner after TRIP (R75), and the mark that the own set has left the bus in DEADBUS (R77, R79). -/
structure CallRec where
  number    : Nat
  cause     : Cause
  attempts  : Nat
  offers    : List Offer
  incoming  : Option Nat
  mode      : Option Mode
  noted     : Bool
  outcome   : Option EndOutcome
  lostLate  : Bool
  leftBus   : Bool
deriving DecidableEq, Repr

/-- The incoming record (4.1), with the marks that READY has been sent (R72) and the join asked for (R78). -/
structure IncRec where
  caller    : Nat
  number    : Nat
  mode      : Option Mode
  readySent : Bool
  joinAsked : Bool
deriving DecidableEq, Repr

/-- The Changeover Controller.  `abortReason` is the reason of the last ABORT taken, kept for the tool and for line
analysis (R82, log 54). -/
structure Cc where
  state       : Handover
  call        : Option CallRec
  inc         : Option IncRec
  counter     : Nat
  pending     : Option Cause
  noIncoming  : Bool
  partnerLost : Bool
  abortReason : Option Byte
  offerWindow : Timer
  retryWait   : Timer
  offerTimer  : Timer
  prepTimeout : Timer
  prepLimit   : Timer
  gapLimit    : Timer
  endWait     : Timer
deriving DecidableEq, Repr

/-! ### Shed Controller -/

/-- The command in flight of a feeder, an FOFF with what it was issued for (R88). -/
inductive InFlight where
  | fon | foffOverload | foffDeadBus
deriving DecidableEq, Repr

/-- The failed cause (R88). -/
inductive FailedCause where
  | overload | deadBus | restore
deriving DecidableEq, Repr

/-- The cause of a shed list entry (5.3). -/
inductive ShedCause where
  | overload | deadBus | openAtStart
deriving DecidableEq, Repr

/-- A feeder record's changing part (Table 5-1).  `failed` is the failed cause; the feeder is FAILED exactly while it
is not none. -/
structure Feeder where
  closed    : Bool
  lastKw    : Option Nat
  inFlight  : Option InFlight
  steady    : Bool
  failed    : Option FailedCause
  energised : Nat
deriving DecidableEq, Repr

/-- A shed list entry. -/
structure ShedEntry where
  feeder : FeederId
  cause  : ShedCause
deriving DecidableEq, Repr

/-- The shed summary (R92). -/
structure ShedSummary where
  cls   : Option FeederClass
  count : Nat
deriving DecidableEq, Repr

/-- The Shed Controller. -/
structure Sc where
  recs       : Quad Feeder
  shedList   : List ShedEntry
  rotShow    : List FeederId
  rotVendor  : List FeederId
  rotAmenity : List FeederId
  summary    : ShedSummary
  window     : Timer
  settle     : Timer
  spacing    : Timer
  waiting    : Bool
  overload   : Bool
deriving DecidableEq, Repr

/-! ### Fuel Unit -/

/-- A lot (Table 6-1).  Past its 32 bits a quantity goes on without a bound (log 36). -/
structure Lot where
  number     : Nat
  price      : Nat
  delivered  : Nat
  remaining  : Nat
  clock      : Nat
  clockValid : Bool
deriving DecidableEq, Repr

/-- Why a reconciliation ran (Table 6-4). -/
inductive ReconOrigin where
  | none | afterVisit | tool
deriving DecidableEq, Repr

/-- What a reconciliation did (Table 6-4). -/
inductive ReconAction where
  | none | shrink | gain
deriving DecidableEq, Repr

/-- The reconciliation record (Table 6-4). -/
structure Recon where
  origin     : ReconOrigin
  clock      : Nat
  level      : Nat
  bookBefore : Int
  difference : Int
  action     : ReconAction
  corrected  : Nat
  cancelled  : Nat
  shrunk     : Nat
deriving DecidableEq, Repr

/-- The open-delivery record (R129).  It exists exactly while its age timer runs. -/
structure Delivery where
  number   : Nat
  price    : Nat
  terminal : Nat
  truck    : Nat
  visited  : Bool
  age      : Nat
deriving DecidableEq, Repr

/-- Pause causes (Table 7-4). -/
inductive PauseCause where
  | keyOff | highLevel | fillLimit | flowStall
deriving DecidableEq, Repr

/-- End causes (Table 7-2). -/
inductive EndCause where
  | terminalEnd | deliveryClosed | recordExpired | recordReplaced | pauseLimit
deriving DecidableEq, Repr

/-- State of a visit with the cause that goes with it (Table 7-2). -/
inductive VisitState where
  | flowing
  | paused (c : PauseCause)
  | ended (c : EndCause)
deriving DecidableEq, Repr

/-- The visit record (Table 7-2).  `repaying`: overdraw has been repaid since the visit last entered a lot (R113). -/
structure Visit where
  state    : VisitState
  number   : Nat
  price    : Nat
  terminal : Nat
  visitDl  : Nat
  repaidDl : Nat
  repaying : Bool
deriving DecidableEq, Repr

/-- The Fuel Unit. -/
structure Fu where
  lots        : List Lot
  overdraw    : Nat
  heldPrice   : Nat
  hours       : Nat
  threshold   : Threshold
  unbooked    : Nat
  shrinkValue : Nat
  recon       : Recon
  reconTimer  : Timer
  waitLevel   : Bool
  delivery    : Option Delivery
  claimRepeat : Timer
  visit       : Option Visit
  flowStall   : Timer
  pauseTimer  : Timer
  heldBf      : BitVec 32
  heldFf      : BitVec 32
deriving DecidableEq, Repr

/-! ### Billing Unit -/

/-- The band an interval runs under (Table 8-1). -/
structure BandTaken where
  index : Nat
  m     : Nat
  s     : Nat
  g     : Nat
deriving DecidableEq, Repr

/-- The accumulators of a fitted feeder in an interval (Table 8-1); tenant 0 stands for none. -/
structure FeederAcc where
  tenant : Nat
  e      : Nat
  t      : Nat
  u      : Nat
deriving DecidableEq, Repr

/-- The interval record (Table 8-1). -/
structure Interval where
  openClock  : Nat
  openValid  : Bool
  band       : Option BandTaken
  endPoint   : Option Nat
  seconds    : Nat
  setE       : Nat
  setC       : Nat
  lotChange  : Bool
  feeders    : Quad (Option FeederAcc)
deriving DecidableEq, Repr

/-- A cost table entry (8.2). -/
structure CostEntry where
  station  : Nat
  endClock : Nat
  e        : Nat
  c        : Nat
  used     : Bool
deriving DecidableEq, Repr

/-- A statement record (Table 8-4). -/
structure Statement where
  number     : Nat
  clock      : Nat
  clockValid : Bool
  running    : Nat
  energy     : Nat
  energised  : Nat
  shed       : Nat
deriving DecidableEq, Repr

/-- LIVE or DORMANT (R153). -/
inductive SlotStatus where
  | live | dormant
deriving DecidableEq, Repr

/-- An account slot (Table 8-3); tenant 0 stands for a free slot. -/
structure Slot where
  tenant     : Nat
  status     : SlotStatus
  reopened   : Bool
  lifetime   : Nat
  running    : Nat
  carry      : Nat
  energy     : Nat
  energised  : Nat
  shed       : Nat
  postings   : Nat
  stmtCount  : Nat
  lastClock  : Option Nat
  statements : List Statement
deriving DecidableEq, Repr

/-- A journal entry (R157). -/
structure JournalEntry where
  number        : Nat
  endClock      : Nat
  feeder        : Nat
  tenant        : Nat
  band          : Nat
  rate          : Nat
  e             : Nat
  t             : Nat
  charge        : Nat
  carry         : Nat
  clamped       : Bool
  shortInterval : Bool
  rateHeld      : Bool
  lotChange     : Bool
deriving DecidableEq, Repr

/-- The Billing Unit.  `slots` holds the eight account slots, slot 1 first. -/
structure Bu where
  interval      : Interval
  rate          : Nat
  costOwn       : Option CostEntry
  costPeers     : List CostEntry
  slots         : List Slot
  journal       : List JournalEntry
  postingNumber : Nat
  heldSe        : BitVec 32
  heldF         : Quad (BitVec 32)
deriving DecidableEq, Repr

/-! ### Line Controller -/

/-- Frame kinds (Table 9-4). -/
inductive Kind where
  | state | startIntent | stopIntent | deadbusClaim
  | call | offer | pick | ready | step | ending | abort | hold
  | cost | deliveryOpen | deliveryClose | fillClaim | visit | visitReply | visitEnd | fillDone
  | toolCommand | answer
deriving DecidableEq, Repr

/-- A frame in the transmit queue: kind, group and station addressed, payload, attempt count, and for an ANSWER part
the serial of its answer. -/
structure TxFrame where
  kind     : Kind
  group    : Nat
  dest     : Nat
  payload  : List Byte
  attempts : Nat
  answerOf : Option Nat
deriving DecidableEq, Repr

/-- Answer results (Table 9-3). -/
inductive Result where
  | done | notPermitted | locked | range | state | unknown
deriving DecidableEq, Repr

/-- Whom an answer goes to: the command's sender, sub-kind and tag. -/
structure Ask where
  sender  : Nat
  subKind : Byte
  tag     : Byte
deriving DecidableEq, Repr

/-- The answer buffer (R172): the answer's serial, whom it goes to, the result, the data, the index of the next part. -/
structure Answer where
  serial : Nat
  ask    : Ask
  result : Result
  data   : List Byte
  next   : Nat
deriving DecidableEq, Repr

/-- A pending restart (R173): none, waiting for the ANSWER of this serial to leave the queue, or ready for the SR. -/
inductive Restart where
  | none
  | waiting (serial : Nat)
  | ready
deriving DecidableEq, Repr

/-- The receive assembly (R163): waiting for an idle gap, between frames, or in a frame; the characters, the bad mark,
the mark that the own transmitter drove the line during the frame, and the mark that it is the own frame sent whole, of
which the idle gap alone is still to come (R165, log 15). -/
structure Rx where
  waitGap : Bool
  inFrame : Bool
  chars   : List Byte
  bad     : Bool
  own     : Bool
  whole   : Bool
deriving DecidableEq, Repr

/-- The Line Controller. -/
structure Lc where
  enabled   : Bool
  queue     : List TxFrame
  sending   : Bool
  access    : Timer
  backoff   : Timer
  rx        : Rx
  answer    : Option Answer
  answerSeq : Nat
  restart   : Restart
  duplicate : Bool
  prng      : BitVec 16
  draws     : Nat
deriving DecidableEq, Repr

/-! ### Start and Retained Store -/

/-- What the store holds for a record: never written, contents with a good check, or contents that fail their check
(R181). -/
inductive Stored (α : Type) where
  | absent
  | good (a : α)
  | damaged
deriving DecidableEq, Repr

/-- A retained record: what is stored, the contents of the write that runs (if one does), and the mark that they have
changed since it began (R180). -/
structure Rec (α : Type) where
  stored  : Stored α
  writing : Option α
  again   : Bool
deriving DecidableEq, Repr

/-- Contents of the fuel book record (R127). -/
structure FuelBook where
  lots      : List Lot
  overdraw  : Nat
  heldPrice : Nat
deriving DecidableEq, Repr

/-- Contents of the shrink record (R127). -/
structure ShrinkBook where
  shrinkValue : Nat
  recon       : Recon
deriving DecidableEq, Repr

/-- The retained store (Table 10-3); `slots` holds the eight account slot records. -/
structure Store where
  fuelBook      : Rec FuelBook
  shrink        : Rec ShrinkBook
  interval      : Rec Interval
  rate          : Rec Nat
  slots         : List (Rec Slot)
  journal       : Rec (List JournalEntry)
  postingNumber : Rec Nat
  clockFloor    : Rec Nat
deriving DecidableEq, Repr

/-! ### Reports between the units -/

/-- A change of the site clock (R35). -/
inductive ClockChange where
  | becomingValid (v : Nat)
  | step (v : Nat)
  | jump (before after : Nat)
deriving DecidableEq, Repr

/-- What reaches the PCU. -/
inductive PcuMsg where
  | pulse (c : Channel) (gap active : Nat)
  | window (c : Channel)
deriving DecidableEq, Repr

/-- What reaches the FLI. -/
inductive FliMsg where
  | level (i : Input) (level : Bool) (held : Nat)
  | command (d : Device) (c : Sense)
  | pulseEnd (d : Device)
  | limit (d : Device)
  | valve (openIt : Bool)
  | auxRow (st : Handover)
  | reportKept
deriving DecidableEq, Repr

/-- What reaches the PT. -/
inductive PtMsg where
  | reportable
  | ownChanged
  | heartbeat
  | showChanged
  | stateFrame (h : Header) (payload : List Byte)
  | age (station : Nat)
  | second
  | runSecond
  | timeSet (ask : Ask) (clock : Nat)
  | intervalClosed (clock : Nat)
deriving DecidableEq, Repr

/-- What reaches the DU: input changes, breaker results, figures, timers, frames, the CC's requests (R59). -/
inductive DuMsg where
  | running (b : Bool)
  | readyInput (b : Bool)
  | faultInput (b : Bool)
  | busLive (b : Bool)
  | syncOk (b : Bool)
  | confirmed (c : Sense)
  | failed (c : Sense)
  | uncommanded (b : Bool)
  | seTotal (t : BitVec 32)
  | seWindow
  | figures (power : Bool)
  | test
  | computeShare
  | tryJoin
  | takeHeld
  | peerLost (station : Nat)
  | duplicate
  | startTimer | cooldown | stopRepeat | rampSecond | rampTimer | joinTimer
  | startDwell | stopDwell | intentHold | deadBus | escalation | claimHold | claimWait
  | startIntent (station : Nat) (keys : Keys)
  | stopIntent (station : Nat) (hours : Nat)
  | claim (station : Nat) (keys : Keys)
  | reqStart | reqJoin | reqRamp | reqResume | reqTrip | reqStop
deriving DecidableEq, Repr

/-- What reaches the CC: the DU's reports, threshold changes, figures, the partner's frames, timers, tool commands. -/
inductive CcMsg where
  | threshold (before after : Threshold)
  | setChanged (before after : SetState)
  | startFail
  | joinFail
  | tripFail
  | rampRefused
  | rampAbandoned
  | tripIssued (outcome : EndOutcome)
  | busLive (b : Bool)
  | showActive (b : Bool)
  | peerLost (station : Nat)
  | partnerState (station : Nat)
  | serve
  | checkReady
  | checkSet
  | checkDeadbus
  | checkRelease
  | callFrame (caller number needed : Nat)
  | offerFrame (caller number : Nat) (o : Offer)
  | pickFrame (sender caller number incoming : Nat) (mode : Mode)
  | readyFrame (sender caller number : Nat)
  | stepFrame (sender caller number : Nat) (k : Option StepKind)
  | endFrame (sender caller number : Nat)
  | abortFrame (sender caller number : Nat) (why : Byte)
  | holdFrame (sender caller number : Nat)
  | offerWindow | offerTimer | retryWait | prepLimit | prepTimeout | gapLimit | endWait
  | handoverRequest (ask : Ask)
  | handoverAbort (ask : Ask)
deriving DecidableEq, Repr

/-- What reaches the SC. -/
inductive ScMsg where
  | busLive (b : Bool)
  | figures (power cls : Bool)
  | handover (before : Handover)
  | confirmed (n : FeederId) (c : Sense)
  | failed (n : FeederId) (c : Sense)
  | uncommanded (n : FeederId) (closed : Bool)
  | fWindow (n : FeederId)
  | second
  | window | settle | spacing
  | changed
  | restoreTest
  | endOfStart
deriving DecidableEq, Repr

/-- What reaches the FU. -/
inductive FuMsg where
  | bfTotal (t : BitVec 32)
  | ffTotal (t : BitVec 32)
  | burn (n : Nat)
  | fill (n : Nat)
  | bfWindow
  | lpWindow
  | fillKey (b : Bool)
  | highLevel (b : Bool)
  | open' (sender number price truck : Nat)
  | close (sender number : Nat)
  | visit (sender number : Nat)
  | visitEnd (sender number : Nat)
  | recordExpiry | claimRepeat | flowStall | pauseTimer | reconTimer | endOfStart
  | reconcile (ask : Ask)
  | tankQuery (ask : Ask)
deriving DecidableEq, Repr

/-- What reaches the BU.  LOT CHANGE carries the removed lot's number and price and the new head's, if any (R110). -/
inductive BuMsg where
  | seTotal (t : BitVec 32)
  | fTotal (n : FeederId) (t : BitVec 32)
  | seUnits (k : Nat)
  | fUnits (n : FeederId) (k : Nat)
  | cost (price : Nat)
  | lotChange (removed : Nat × Nat) (head : Option (Nat × Nat))
  | energised (n : FeederId)
  | secondMark
  | clock (c : ClockChange)
  | costFrame (station endClock e c : Nat)
  | statementClose (ask : Ask) (code : Nat)
  | accountQuery (ask : Ask) (code : Nat)
  | statementQuery (ask : Ask) (code : Nat)
  | journalQuery (ask : Ask) (number : Nat)
deriving DecidableEq, Repr

/-- What reaches the LC. -/
inductive LcMsg where
  | offer (f : TxFrame)
  | answer (ask : Ask) (r : Result) (data : List Byte)
  | frame (h : Header) (kind : Byte) (payload : List Byte)
  | raw (bits : List Bool)
  | startBit
  | accessDone
  | sent
  | collision (place : Nat) (readback : List Bool)
  | backoffEnd
deriving DecidableEq, Repr

/-- What reaches the SR. -/
inductive SrMsg where
  | touch (r : RecordId)
  | written (r : RecordId)
deriving DecidableEq, Repr

/-- A report on its way to the unit named. -/
inductive Report where
  | pcu (m : PcuMsg)
  | fli (m : FliMsg)
  | pt (m : PtMsg)
  | du (m : DuMsg)
  | cc (m : CcMsg)
  | sc (m : ScMsg)
  | fu (m : FuMsg)
  | bu (m : BuMsg)
  | lc (m : LcMsg)
  | sr (m : SrMsg)
deriving DecidableEq, Repr

/-! ### The whole part -/

/-- The state of the part, with the commands waiting (`pending`). -/
structure State where
  pending         : List Instr
  phase           : Phase
  configClamped   : Bool
  retainedDamaged : Bool
  cfg             : Cfg
  pcu             : Pcu
  fli             : Fli
  pt              : Pt
  du              : Du
  cc              : Cc
  sc              : Sc
  fu              : Fu
  bu              : Bu
  lc              : Lc
  store           : Store
deriving DecidableEq, Repr

/-- The reasons a step can fault.  There is none: nothing in the spec stops the part (INVENTORY.md, Faults), and no
meaning raises a fault. -/
inductive Fault where
deriving DecidableEq, Repr

/-- The reasons a step can be refused. -/
inductive Refusal where
  /-- The command has no meaning in the model yet.  Raised by an arm of `exec` alone; safe, the model stops.  No arm
  raises it. -/
  | notModelled (mnemonic : String)
deriving DecidableEq, Repr

/-! ### Values before the first start -/

def ChanCfg.blank : ChanCfg := ⟨0, 0, 0, 0⟩

def Band.blank : Band := ⟨false, 0, 0, 0, 0, 0⟩

/-- The configuration before any image has been loaded (log 2). -/
def Cfg.blank : Cfg :=
  { station := 0, group := 0, setFitted := false, tankFitted := false, closedCap := false, fitted := Quad.all false,
    heartbeat := 0, rating := 0, capacity := 0, fE := 0, fF := 0,
    se := .blank, bf := .blank, ff := .blank, lp := .blank, f := Quad.all .blank,
    startThr := 0, stopThr := 0, startDwell := 0, stopDwell := 0, cooldown := 0, rampRate := 0,
    overload := 0, restore := 0, low := 0, critical := 0, tolerance := 0, claimThr := 0, fillLimit := 0,
    standby := 0, intervalLen := 0, order := ⟨.amenity, .vendor, .showClass⟩,
    tenant := Quad.all 0, cls := Quad.all .protectedClass, bands := Quad.all .blank, aux := [] }

/-- A channel at start (R8). -/
def Chan.start : Chan := ⟨none, 0, 0, 0, 0, 0⟩

/-- The PCU at start (R8). -/
def Pcu.start : Pcu :=
  { se := .start, bf := .start, ff := .start, lp := .start, f := Quad.all .start, level := none }

def Dev.idle : Dev := ⟨none, none, none⟩

/-- The FLI after step 1 of a start (R19), before the inputs are sampled. -/
def Fli.start : Fli :=
  { inputs := .inactive, genset := .idle, breaker := .idle, feeder := Quad.all .idle, valve := false, aux := 0,
    breakerFail := false, kept := [] }

def Figures.zero : Figures := ⟨0, 0, 0, 0, 0, false, false, none⟩

/-- The PT at start (Tables 2-2 and 2-5) with a floor of 0. -/
def Pt.start : Pt :=
  { entries := [], tableFull := false, figs := .zero, heartbeat := none, clock := 0, clockValid := false, floor := 0,
    second := none, runSeconds := 0 }

/-- The DU at start (R45), before the rebuild of step 6. -/
def Du.start : Du :=
  { state := .stopped, breaker := false, origin := none, cause := none, join := none, share := 0, shareArmed := false,
    tripIssued := false, heldStart := none, startTimer := none, cooldown := none, ramp := none, joinTimer := none,
    stopRepeat := none, startDwell := .off, stopDwell := .off, startIntent := none, stopIntent := none,
    intentHold := none, deadBus := none, recovery := .none, escalation := none, claim := none, claimHold := none,
    rival := none, claimWait := none, heldSe := 0 }

/-- The CC at start (R61). -/
def Cc.start : Cc :=
  { state := .idle, call := none, inc := none, counter := 0, pending := none, noIncoming := false,
    partnerLost := false, abortReason := none, offerWindow := none, retryWait := none, offerTimer := none,
    prepTimeout := none, prepLimit := none, gapLimit := none, endWait := none }

def Feeder.start : Feeder := ⟨false, none, none, false, none, 0⟩

/-- The SC at start, before the rebuild of step 6 (R100). -/
def Sc.start : Sc :=
  { recs := Quad.all .start, shedList := [], rotShow := [], rotVendor := [], rotAmenity := [], summary := ⟨none, 0⟩,
    window := none, settle := none, spacing := none, waiting := false, overload := false }

/-- The reconciliation record before the first reconciliation: origin none (Table 6-6); the other fields hold 0 and
action NONE (the model's choice, log 51). -/
def Recon.none : Recon := ⟨.none, 0, 0, 0, 0, .none, 0, 0, 0⟩

/-- The FU at start with absent records (Table 6-6). -/
def Fu.start : Fu :=
  { lots := [], overdraw := 0, heldPrice := 0, hours := 9999, threshold := .normal, unbooked := 0, shrinkValue := 0,
    recon := .none, reconTimer := none, waitLevel := false, delivery := none, claimRepeat := none, visit := none,
    flowStall := none, pauseTimer := none, heldBf := 0, heldFf := 0 }

/-- An interval just opened on the invalid clock, no feeder recorded. -/
def Interval.blank : Interval :=
  { openClock := 0, openValid := false, band := none, endPoint := none, seconds := 0, setE := 0, setC := 0,
    lotChange := false, feeders := Quad.all none }

/-- A free slot (Table 10-4, absent). -/
def Slot.free : Slot :=
  { tenant := 0, status := .dormant, reopened := false, lifetime := 0, running := 0, carry := 0, energy := 0,
    energised := 0, shed := 0, postings := 0, stmtCount := 0, lastClock := none, statements := [] }

/-- The BU at start with absent records (Table 8-5). -/
def Bu.start : Bu :=
  { interval := .blank, rate := 0, costOwn := none, costPeers := [], slots := List.replicate 8 .free, journal := [],
    postingNumber := 0, heldSe := 0, heldF := Quad.all 0 }

/-- The receive assembly at start (Table 9-6-A). -/
def Rx.start : Rx := ⟨true, false, [], false, false, false⟩

/-- The LC at start (Table 9-6-A).  The register is seeded when the station number has been read. -/
def Lc.start : Lc :=
  { enabled := false, queue := [], sending := false, access := none, backoff := none, rx := .start, answer := none,
    answerSeq := 0, restart := .none, duplicate := false, prng := 0, draws := 0 }

def Rec.absent {α : Type} : Rec α := ⟨.absent, none, false⟩

/-- The store of a part that has never written a record (R181). -/
def Store.new : Store :=
  { fuelBook := .absent, shrink := .absent, interval := .absent, rate := .absent,
    slots := List.replicate 8 .absent, journal := .absent, postingNumber := .absent, clockFloor := .absent }

/-- The part as made, before power first returns (log 1): every unit at its start value, every record absent, no
command waiting. -/
def State.reset : State :=
  { pending := [], phase := .off, configClamped := false, retainedDamaged := false, cfg := .blank,
    pcu := .start, fli := .start, pt := .start, du := .start, cc := .start, sc := .start, fu := .start, bu := .start,
    lc := .start, store := .new }

end Sys2Proof.Machine
end

