-- ==== Sys2Proof/Machine/Ops.lean ====
section
/-! DEFINITION. The shared operations: arithmetic terms, byte order, the check, the tables of codes, access to channels, devices and feeders, frame building, ranking. -/

namespace Sys2Proof.Machine

/-! ### Units that act and report -/

/-- What a unit answers to a report: its new state and the reports it hands over, in order. -/
abbrev Act (α : Type) := α × List Report

/-- Two acts of one unit, one after the other. -/
def Act.andThen {α : Type} (x : Act α) (g : α → Act α) : Act α :=
  ((g x.1).1, x.2 ++ (g x.1).2)

/-- No change, no report. -/
def quiet {α : Type} (a : α) : Act α := (a, [])

/-! ### Arithmetic terms (00, Table 0-4) -/

/-- Clamped to `lo..hi`. -/
def clampTo (lo hi n : Nat) : Nat := if n < lo then lo else if hi < n then hi else n

/-- Round-half-up of `a ÷ b`. -/
def roundDiv (a b : Nat) : Nat := (2 * a + b) / (2 * b)

/-- Addition held at a maximum once reached. -/
def satAdd (max a b : Nat) : Nat := if max < a + b then max else a + b

/-- The units between a total handed over and the one held (R3). -/
def unitsBetween (held t : BitVec 32) : Nat := (t - held).toNat

/-- The largest 32-bit value. -/
def max32 : Nat := 4294967295

/-! ### Byte order (R167) -/

/-- `n` in `w` bytes, most significant first. -/
def beBytes : (w : Nat) → (n : Nat) → List Byte
  | 0, _ => []
  | w + 1, n => BitVec.ofNat 8 (n / 256 ^ w) :: beBytes w n

/-- The number a list of bytes stands for, most significant first. -/
def beNat (l : List Byte) : Nat := l.foldl (fun acc b => acc * 256 + b.toNat) 0

/-- The field of width `w` at offset `o` of a payload or image. -/
def fieldAt (p : List Byte) (o w : Nat) : Nat := beNat ((p.drop o).take w)

/-- A flag byte: 0x00 or 0x01. -/
def flagByte (b : Bool) : Byte := if b then 1 else 0

/-- A signed item: two's complement in 4 bytes. -/
def signedBytes (d : Int) : List Byte := beBytes 4 (d % 4294967296).toNat

/-- An item of width `w` that may be none: every byte 0xFF then. -/
def optBytes (w : Nat) (v : Option Nat) : List Byte :=
  match v with
  | some n => beBytes w n
  | none => List.replicate w 0xFF

/-! ### The check (R164) -/

/-- One bit into the check register, generator x^16 + x^12 + x^5 + 1. -/
def crcBit (reg : BitVec 16) (b : Bool) : BitVec 16 :=
  if reg.msb != b then (reg <<< 1) ^^^ 0x1021#16 else reg <<< 1

/-- One character, most significant bit first. -/
def crcByte (reg : BitVec 16) (c : Byte) : BitVec 16 :=
  [7, 6, 5, 4, 3, 2, 1, 0].foldl (fun r i => crcBit r (c.getLsbD i)) reg

/-- One character into the register held as a number. -/
def crcStep (r : Nat) (c : Byte) : Nat := (crcByte (BitVec.ofNat 16 r) c).toNat

/-- The register after a list of characters.  The two cases do the same; they make the kernel compute the register
before it goes on. -/
def crcFrom : List Byte → Nat → Nat
  | [], r => r
  | c :: cs, 0 => crcFrom cs (crcStep 0 c)
  | c :: cs, r + 1 => crcFrom cs (crcStep (r + 1) c)

/-- The check over a list of characters; the register starts at 0xFFFF. -/
def crc (cs : List Byte) : BitVec 16 := BitVec.ofNat 16 (crcFrom cs 0xFFFF)

/-! ### Codes (Tables 9-3, 9-4) -/

def SetState.code : SetState → Nat
  | .stopped => 0 | .cranking => 1 | .warming => 2 | .ready => 3
  | .onbus => 4 | .rampdown => 5 | .cooling => 6 | .fault => 7

/-- An undefined code is taken as FAULT (Table 2-3). -/
def SetState.ofCode : Nat → SetState
  | 0 => .stopped | 1 => .cranking | 2 => .warming | 3 => .ready
  | 4 => .onbus | 5 => .rampdown | 6 => .cooling | _ => .fault

def Handover.code : Handover → Nat
  | .idle => 0 | .hold => 1 | .call => 2 | .offered => 3
  | .prepare => 4 | .parallel => 5 | .deadbus => 6 | .release => 7

def Handover.ofCode? : Nat → Option Handover
  | 0 => some .idle | 1 => some .hold | 2 => some .call | 3 => some .offered
  | 4 => some .prepare | 5 => some .parallel | 6 => some .deadbus | 7 => some .release
  | _ => none

def Threshold.code : Threshold → Nat
  | .normal => 0 | .low => 1 | .critical => 2

/-- An undefined code is taken as CRITICAL (Table 2-3). -/
def Threshold.ofCode : Nat → Threshold
  | 0 => .normal | 1 => .low | _ => .critical

/-- The class codes; 0 stands for none. -/
def classCode : Option FeederClass → Nat
  | none => 0
  | some .showClass => 1
  | some .vendor => 2
  | some .amenity => 3
  | some .protectedClass => 4

/-- The class a peer's shed summary names: an undefined code, and PROTECTED, which is for configuration only, are taken
as none (Tables 2-3 and 9-3, log 34). -/
def shedClassOf : Nat → Option FeederClass
  | 1 => some .showClass | 2 => some .vendor | 3 => some .amenity | _ => none

def Cause.code : Cause → Nat
  | .scheduled => 1 | .fuelLow => 2 | .fuelCritical => 3

def Mode.code : Mode → Nat
  | .open' => 0 | .closed' => 1

/-- An undefined mode code is taken as the free value says (log 16). -/
def Mode.ofByte (b : Byte) : Mode :=
  if b = 0 then .open' else if b = 1 then .closed' else if Config.undefinedMode b then .closed' else .open'

/-- Readiness: 0x01 READY, 0x00 STOPPED; an undefined code is taken as the free value says (log 16). -/
def readyOf (b : Byte) : Bool :=
  if b = 1 then true else if b = 0 then false else Config.undefinedReadiness b

def StepKind.code : StepKind → Nat
  | .closed' => 1 | .opening => 2 | .opened => 3

def StepKind.ofNat? : Nat → Option StepKind
  | 1 => some .closed' | 2 => some .opening | 3 => some .opened | _ => none

/-- An undefined step code is taken as the free value says (log 16). -/
def stepOf (b : Byte) : Option StepKind :=
  if b = 1 ∨ b = 2 ∨ b = 3 then StepKind.ofNat? b.toNat else StepKind.ofNat? (Config.undefinedStep b)

def EndOutcome.code : EndOutcome → Nat
  | .normal => 1 | .forced => 2 | .abandoned => 3 | .fault => 4

/-- The outcome of a ramp that ended before any TRIP was issued (log 23). -/
def unstatedOutcome (number : Nat) : EndOutcome :=
  match Config.unstatedOutcome number with
  | 1 => .normal | 2 => .forced | 3 => .abandoned | _ => .fault

def AbortReason.code : AbortReason → Nat
  | .notAvailable => 1 | .startFail => 2 | .joinFail => 3 | .gap => 4 | .offBus => 5
  | .tripFail => 6 | .timeout => 7 | .tool => 8 | .withdrawn => 9

def EndCause.code : EndCause → Nat
  | .terminalEnd => 1 | .deliveryClosed => 2 | .recordExpired => 3 | .recordReplaced => 4 | .pauseLimit => 5

def Result.code : Result → Nat
  | .done => 0 | .notPermitted => 1 | .locked => 2 | .range => 3 | .state => 4 | .unknown => 5

def Kind.code : Kind → Nat
  | .state => 0x10 | .startIntent => 0x20 | .stopIntent => 0x21 | .deadbusClaim => 0x22
  | .call => 0x30 | .offer => 0x31 | .pick => 0x32 | .ready => 0x33
  | .step => 0x34 | .ending => 0x35 | .abort => 0x36 | .hold => 0x37
  | .cost => 0x40 | .deliveryOpen => 0x50 | .deliveryClose => 0x51 | .fillClaim => 0x52
  | .visit => 0x53 | .visitReply => 0x54 | .visitEnd => 0x55 | .fillDone => 0x56
  | .toolCommand => 0x60 | .answer => 0x6F

def Kind.ofCode? : Nat → Option Kind
  | 0x10 => some .state | 0x20 => some .startIntent | 0x21 => some .stopIntent | 0x22 => some .deadbusClaim
  | 0x30 => some .call | 0x31 => some .offer | 0x32 => some .pick | 0x33 => some .ready
  | 0x34 => some .step | 0x35 => some .ending | 0x36 => some .abort | 0x37 => some .hold
  | 0x40 => some .cost | 0x50 => some .deliveryOpen | 0x51 => some .deliveryClose | 0x52 => some .fillClaim
  | 0x53 => some .visit | 0x54 => some .visitReply | 0x55 => some .visitEnd | 0x56 => some .fillDone
  | 0x60 => some .toolCommand | 0x6F => some .answer
  | _ => none

/-- Urgent kinds (Table 9-2). -/
def Kind.urgent : Kind → Bool
  | .startIntent | .stopIntent | .deadbusClaim | .call | .offer | .pick | .ready
  | .step | .ending | .abort | .hold => true
  | .state | .cost | .deliveryOpen | .deliveryClose | .fillClaim | .visit | .visitReply | .visitEnd
  | .fillDone | .toolCommand | .answer => false

/-- Kinds a station does not take (Table 9-4, last column). -/
def Kind.notTaken : Kind → Bool
  | .fillClaim | .visitReply | .fillDone | .answer => true
  | .state | .startIntent | .stopIntent | .deadbusClaim | .call | .offer | .pick | .ready | .step | .ending
  | .abort | .hold | .cost | .deliveryOpen | .deliveryClose | .visit | .visitEnd | .toolCommand => false

/-- The station kinds START INTENT to COST (R166). -/
def Kind.stationKind : Kind → Bool
  | .startIntent | .stopIntent | .deadbusClaim | .call | .offer | .pick | .ready
  | .step | .ending | .abort | .hold | .cost => true
  | .state | .deliveryOpen | .deliveryClose | .fillClaim | .visit | .visitReply | .visitEnd
  | .fillDone | .toolCommand | .answer => false

/-- The payload length of Table 9-4 where R166 tests it. -/
def Kind.fixedLength : Kind → Option Nat
  | .state | .toolCommand | .answer => none
  | .startIntent => some 3
  | .stopIntent => some 2
  | .deadbusClaim => some 3
  | .call => some 6
  | .offer => some 8
  | .pick => some 4
  | .ready => some 2
  | .step => some 3
  | .ending => some 3
  | .abort => some 3
  | .hold => some 2
  | .cost => some 15
  | .deliveryOpen => some 8
  | .deliveryClose => some 2
  | .fillClaim => some 7
  | .visit => some 2
  | .visitReply => some 3
  | .visitEnd => some 2
  | .fillDone => some 15

/-! ### Channels, devices, inputs -/

/-- The record of a channel. -/
def Pcu.get (p : Pcu) : Channel → Chan
  | .se => p.se
  | .bf => p.bf
  | .ff => p.ff
  | .lp => p.lp
  | .f n => p.f.get n

/-- The PCU with a channel's record replaced. -/
def Pcu.put (p : Pcu) (c : Channel) (x : Chan) : Pcu :=
  match c with
  | .se => { p with se := x }
  | .bf => { p with bf := x }
  | .ff => { p with ff := x }
  | .lp => { p with lp := x }
  | .f n => { p with f := p.f.put n x }

/-- The configured scaling of a channel. -/
def Cfg.chan (g : Cfg) : Channel → ChanCfg
  | .se => g.se
  | .bf => g.bf
  | .ff => g.ff
  | .lp => g.lp
  | .f n => g.f.get n

/-- A channel is in use when the equipment it measures is fitted (1.1). -/
def Cfg.channelInUse (g : Cfg) : Channel → Bool
  | .se => g.setFitted
  | .bf | .ff | .lp => g.tankFitted
  | .f n => g.fitted.get n

/-- Some feeder is fitted. -/
def Cfg.anyFeeder (g : Cfg) : Bool := g.fitted.q1 || g.fitted.q2 || g.fitted.q3 || g.fitted.q4

/-- An input is in use as Table 1-2 states. -/
def Cfg.inputInUse (g : Cfg) : Input → Bool
  | .running | .ready | .brk | .fault | .syncOk => g.setFitted
  | .busLive => g.setFitted || g.anyFeeder
  | .ffb n => g.fitted.get n
  | .fillKey | .highLevel => g.tankFitted
  | .showSwitch | .lock => true

/-- The tank capacity K in dL (R7). -/
def Cfg.tankDl (g : Cfg) : Nat := 10 * g.capacity

/-- The fill limit quantity Kf in dL (R131). -/
def Cfg.fillLimitDl (g : Cfg) : Nat := g.tankDl * g.fillLimit / 100

/-- The state of an input. -/
def inputLevel (l : Levels) : Input → Bool
  | .running => l.running
  | .ready => l.ready
  | .brk => l.brk
  | .fault => l.fault
  | .busLive => l.busLive
  | .syncOk => l.syncOk
  | .ffb n => l.ffb.get n
  | .fillKey => l.fillKey
  | .highLevel => l.highLevel
  | .showSwitch => l.showSwitch
  | .lock => l.lock

/-- The input states with one replaced. -/
def setInput (l : Levels) (i : Input) (b : Bool) : Levels :=
  match i with
  | .running => { l with running := b }
  | .ready => { l with ready := b }
  | .brk => { l with brk := b }
  | .fault => { l with fault := b }
  | .busLive => { l with busLive := b }
  | .syncOk => { l with syncOk := b }
  | .ffb n => { l with ffb := l.ffb.put n b }
  | .fillKey => { l with fillKey := b }
  | .highLevel => { l with highLevel := b }
  | .showSwitch => { l with showSwitch := b }
  | .lock => { l with lock := b }

/-- The sampled levels, those of inputs not in use read as inactive (R9). -/
def sampleLevels (g : Cfg) (l : Levels) : Levels :=
  { running := l.running && g.inputInUse .running
    ready := l.ready && g.inputInUse .ready
    brk := l.brk && g.inputInUse .brk
    fault := l.fault && g.inputInUse .fault
    busLive := l.busLive && g.inputInUse .busLive
    syncOk := l.syncOk && g.inputInUse .syncOk
    ffb := Quad.ofFn fun n => l.ffb.get n && g.inputInUse (.ffb n)
    fillKey := l.fillKey && g.inputInUse .fillKey
    highLevel := l.highLevel && g.inputInUse .highLevel
    showSwitch := l.showSwitch
    lock := l.lock }

/-- The record of a device. -/
def Fli.dev (x : Fli) : Device → Dev
  | .genset => x.genset
  | .breaker => x.breaker
  | .feeder n => x.feeder.get n

/-- The FLI with a device's record replaced. -/
def Fli.putDev (x : Fli) (d : Device) (v : Dev) : Fli :=
  match d with
  | .genset => { x with genset := v }
  | .breaker => { x with breaker := v }
  | .feeder n => { x with feeder := x.feeder.put n v }

/-- The level a contact stands at: that of the last change kept for it, else the input's state (R9, R177). -/
def Fli.contact (x : Fli) (i : Input) : Bool :=
  match x.kept.reverse.find? fun k => k.1 == i with
  | some k => k.2
  | none => inputLevel x.inputs i

/-- FILL KEY is on and HIGH LEVEL off, in the state reported and at the contact (R15, R135). -/
def Fli.mayFill (x : Fli) : Bool :=
  x.inputs.fillKey && x.contact .fillKey && !x.inputs.highLevel && !x.contact .highLevel

/-- The CLOSE pulse or its confirm is running (R42, R49). -/
def Fli.closing (x : Fli) : Bool := x.breaker.pulse == some .on || x.breaker.confirm == some .on

/-! ### Phases -/

/-- The end of start-up has been reached (R176). -/
def State.isRunning (s : State) : Bool := s.phase == .running

/-- Step `n` of the start order has ended. -/
def State.pastStep (s : State) (n : Nat) : Bool :=
  match s.phase with
  | .running => true
  | .starting k => n ≤ k
  | .off | .unusable => false

/-! ### Own values -/

/-- The set's output kW, the last SE window figure (R5). -/
def State.outputKw (s : State) : Nat := s.pcu.se.figure

/-- The tank book: the lots' remaining less the overdraw, signed (R108). -/
def Fu.book (f : Fu) : Int := ((f.lots.map (·.remaining)).sum : Nat) - (f.overdraw : Int)

/-- The partner station of the own handover, 0 for none (4.1). -/
def Cc.partner (c : Cc) : Nat :=
  match c.call, c.inc with
  | some r, _ => r.incoming.getD 0
  | none, some r => r.caller
  | none, none => 0

/-- The entry of a station in the peer table. -/
def Pt.find (p : Pt) (station : Nat) : Option PeerEntry := p.entries.find? (·.station == station)

/-! ### Frames -/

/-- A frame to the own group, to one station or to all (0). -/
def groupFrame (g : Cfg) (k : Kind) (dest : Nat) (payload : List Byte) : TxFrame :=
  { kind := k, group := g.group, dest := dest, payload := payload, attempts := 0, answerOf := none }

/-- A frame to a terminal, in group 0. -/
def terminalFrame (k : Kind) (dest : Nat) (payload : List Byte) : TxFrame :=
  { kind := k, group := 0, dest := dest, payload := payload, attempts := 0, answerOf := none }

/-! ### Class priority (R89) -/

/-- Priority of a class in a class order: 0 the lowest, 3 PROTECTED. -/
def priority (o : ClassOrder) (c : FeederClass) : Nat :=
  if c = .protectedClass then 3 else if c = o.lowest then 0 else if c = o.middle then 1 else 2

/-- The lower-priority of two classes, none standing above all. -/
def lowerClass (o : ClassOrder) (a b : Option FeederClass) : Option FeederClass :=
  match a, b with
  | none, b => b
  | a, none => a
  | some x, some y => if priority o y < priority o x then some y else some x

/-! ### Ranks -/

/-- Start rank (R51): READY ahead, then higher hours-to-dry, then lower station number. -/
def startAhead (k₁ : Keys) (n₁ : Nat) (k₂ : Keys) (n₂ : Nat) : Bool :=
  if k₁.ready != k₂.ready then k₁.ready
  else if k₁.hours != k₂.hours then decide (k₂.hours < k₁.hours)
  else decide (n₁ < n₂)

/-- Stop rank (R55): lower hours-to-dry ahead, then higher station number. -/
def stopAhead (h₁ n₁ h₂ n₂ : Nat) : Bool :=
  if h₁ != h₂ then decide (h₁ < h₂) else decide (n₂ < n₁)

/-- Pick rank (R70): a READY set ahead, then higher hours-to-dry, then lower station number. -/
def pickAhead (a b : Offer) : Bool :=
  startAhead ⟨a.ready, a.hours⟩ a.station ⟨b.ready, b.hours⟩ b.station

end Sys2Proof.Machine
end

