-- ==== Sys2Proof/Machine/Operands.lean ====
section
/-! DEFINITION. Operand forms: the payloads a station takes, read from their bytes (Tables 9-4 to 9-12), and the clamping of a STATE frame's fields (Table 2-3). -/

namespace Sys2Proof.Machine

/-- Heartbeat period: clamped, then lowered to the 100 ms step below (Table 2-3). -/
def clampHeartbeat (n : Nat) : Nat := clampTo 500 2000 n / 100 * 100

/-- The fields of a STATE payload (Table 9-6) as an entry holds them (R24). -/
def PeerFields.ofPayload (p : List Byte) : PeerFields :=
  let flags := fieldAt p 2 1
  let fitted := flags.testBit 0
  let hand := Handover.ofCode? (fieldAt p 19 1)
  let partner := fieldAt p 20 1
  { setFitted := fitted
    tankFitted := flags.testBit 1
    closedCap := flags.testBit 2
    heartbeat := clampHeartbeat (fieldAt p 3 2)
    setState := if fitted then SetState.ofCode (fieldAt p 5 1) else .stopped
    onBus := fitted && (fieldAt p 6 1 != 0)
    rating := if fitted then clampTo 10 2000 (fieldAt p 7 2) else 0
    output := if fitted then fieldAt p 9 2 else 0
    share := if fitted then clampTo 0 1250 (fieldAt p 11 2) else 0
    hours := clampTo 0 9999 (fieldAt p 13 2)
    threshold := Threshold.ofCode (fieldAt p 15 1)
    runHours := fieldAt p 16 2
    showInput := fieldAt p 18 1 != 0
    handover := hand.getD .idle
    partner := if hand.isNone || decide (27 < partner) then 0 else partner
    shedClass := shedClassOf (fieldAt p 21 1)
    shedCount := clampTo 0 4 (fieldAt p 22 1)
    clock := fieldAt p 23 4
    clockValid := fieldAt p 27 1 != 0
    alerts := BitVec.ofNat 4 (fieldAt p 28 1) }

/-- The peer's age timer: 3 heartbeat periods plus 200 ms (R25). -/
def ageOf (heartbeat : Nat) : Nat := 3 * heartbeat + 200

/-- Byte `o` of a payload (0 past its end, which the length tests rule out). -/
def byteAt (p : List Byte) (o : Nat) : Byte := p.getD o 0

/-- Readiness and hours-to-dry of a START INTENT or DEADBUS CLAIM (Table 9-4). -/
def keysOf (p : List Byte) : Keys := ⟨readyOf (byteAt p 0), fieldAt p 1 2⟩

/-- The OFFER of a station (Table 9-8). -/
def offerOf (station : Nat) (p : List Byte) : Offer :=
  { station := station, hours := fieldAt p 2 2, ready := decide (fieldAt p 4 1 = SetState.code .ready),
    rating := fieldAt p 5 2, closedCap := fieldAt p 7 1 != 0 }

/-- The report a taken frame makes to the unit that owns its kind (Table 9-4); TOOL COMMAND is the LC's own. -/
def frameReport (h : Header) (k : Kind) (p : List Byte) : List Report :=
  let from_ := h.sender.toNat
  match k with
  | .state => [.pt (.stateFrame h p)]
  | .startIntent => [.du (.startIntent from_ (keysOf p))]
  | .stopIntent => [.du (.stopIntent from_ (fieldAt p 0 2))]
  | .deadbusClaim => [.du (.claim from_ (keysOf p))]
  | .call => [.cc (.callFrame (fieldAt p 5 1) (fieldAt p 0 1) (fieldAt p 2 2))]
  | .offer => [.cc (.offerFrame (fieldAt p 0 1) (fieldAt p 1 1) (offerOf from_ p))]
  | .pick => [.cc (.pickFrame from_ (fieldAt p 0 1) (fieldAt p 1 1) (fieldAt p 2 1) (Mode.ofByte (byteAt p 3)))]
  | .ready => [.cc (.readyFrame from_ (fieldAt p 0 1) (fieldAt p 1 1))]
  | .step => [.cc (.stepFrame from_ (fieldAt p 0 1) (fieldAt p 1 1) (stepOf (byteAt p 2)))]
  | .ending => [.cc (.endFrame from_ (fieldAt p 0 1) (fieldAt p 1 1))]
  | .abort => [.cc (.abortFrame from_ (fieldAt p 0 1) (fieldAt p 1 1) (byteAt p 2))]
  | .hold => [.cc (.holdFrame from_ (fieldAt p 0 1) (fieldAt p 1 1))]
  | .cost => [.bu (.costFrame from_ (fieldAt p 1 4) (fieldAt p 5 5) (fieldAt p 10 5))]
  | .deliveryOpen => [.fu (.open' from_ (fieldAt p 0 2) (fieldAt p 2 2) (fieldAt p 4 4))]
  | .deliveryClose => [.fu (.close from_ (fieldAt p 0 2))]
  | .visit => [.fu (.visit from_ (fieldAt p 0 2))]
  | .visitEnd => [.fu (.visitEnd from_ (fieldAt p 0 2))]
  | .fillClaim | .visitReply | .fillDone | .toolCommand | .answer => []

/-- Tool sub-kinds (Table 9-5). -/
inductive SubKind where
  | accountQuery | statementQuery | journalQuery | tankQuery | statementClose | timeSet
  | handoverRequest | handoverAbort | reconcile | restart
deriving DecidableEq, Repr

def SubKind.ofByte? (b : Byte) : Option SubKind :=
  match b.toNat with
  | 1 => some .accountQuery | 2 => some .statementQuery | 3 => some .journalQuery | 4 => some .tankQuery
  | 5 => some .statementClose | 6 => some .timeSet | 7 => some .handoverRequest | 8 => some .handoverAbort
  | 9 => some .reconcile | 10 => some .restart
  | _ => none

/-- The sub-kind's code (Table 9-5). -/
def SubKind.byte : SubKind → Byte
  | .accountQuery => 1 | .statementQuery => 2 | .journalQuery => 3 | .tankQuery => 4
  | .statementClose => 5 | .timeSet => 6 | .handoverRequest => 7 | .handoverAbort => 8
  | .reconcile => 9 | .restart => 10

/-- Parameter length (Table 9-5). -/
def SubKind.paramLength : SubKind → Nat
  | .accountQuery | .statementQuery | .statementClose => 2
  | .journalQuery | .timeSet => 4
  | .tankQuery | .handoverRequest | .handoverAbort | .reconcile | .restart => 0

/-- Altering sub-kinds (Table 9-5). -/
def SubKind.altering : SubKind → Bool
  | .statementClose | .timeSet | .handoverRequest | .handoverAbort | .reconcile | .restart => true
  | .accountQuery | .statementQuery | .journalQuery | .tankQuery => false

/-- The report of a permitted tool command to its owner; RESTART is the LC's own (R173). -/
def SubKind.report (k : SubKind) (ask : Ask) (params : List Byte) : List Report :=
  match k with
  | .accountQuery => [.bu (.accountQuery ask (beNat params))]
  | .statementQuery => [.bu (.statementQuery ask (beNat params))]
  | .journalQuery => [.bu (.journalQuery ask (beNat params))]
  | .tankQuery => [.fu (.tankQuery ask)]
  | .statementClose => [.bu (.statementClose ask (beNat params))]
  | .timeSet => [.pt (.timeSet ask (beNat params))]
  | .handoverRequest => [.cc (.handoverRequest ask)]
  | .handoverAbort => [.cc (.handoverAbort ask)]
  | .reconcile => [.fu (.reconcile ask)]
  | .restart => []

end Sys2Proof.Machine
end

