-- ==== Sys2Proof/Machine/Billing.lean ====
section
/-! DEFINITION. The Billing Unit (chapter 8, R142 to R161): intervals, cost table and blended rate, bands, postings, account slots, statements, journal, queries. -/

namespace Sys2Proof.Machine

/-! ### Limits and time -/

/-- The largest 40-bit value (Table 8-1). -/
def max40 : Nat := 1099511627775

/-- The largest e that is charged (R150). -/
def maxCharged : Nat := 16777215

/-- Minute of day of a clock value (R35). -/
def minuteOfDay (v : Nat) : Nat := v % 86400 / 60

/-! ### Bands (8.3) -/

/-- The later of two bands by start minute, the higher index where equal; `ok` admits a band (R148). -/
def laterBand (bands : Quad Band) (ok : Band → Bool) (best : Option FeederId) (i : FeederId) : Option FeederId :=
  let b := bands.get i
  if b.inUse && ok b then
    match best with
    | none => some i
    | some j => if (bands.get j).start ≤ b.start then some i else some j
  else best

/-- The band in force at a minute of day (R148). -/
def bandInForce (bands : Quad Band) (x : Nat) : Option FeederId :=
  match FeederId.every.foldl (laterBand bands fun b => decide (b.start ≤ x)) none with
  | some i => some i
  | none => FeederId.every.foldl (laterBand bands fun _ => true) none

/-- The band an interval takes at a clock value (R143, R149). -/
def takeBand (g : Cfg) (v : Nat) : Option BandTaken :=
  (bandInForce g.bands (minuteOfDay v)).map fun i =>
    let b := g.bands.get i
    ⟨i.index, b.m, b.s, b.g⟩

/-- The first value after `v` whose time of day is `tod`. -/
def nextTimeOfDay (v tod : Nat) : Nat :=
  let base := v - v % 86400
  if v % 86400 < tod then base + tod else base + 86400 + tod

/-- The first value after `v` that is a whole multiple of the interval length in its day. -/
def nextMultiple (v len : Nat) : Nat := v - v % 86400 + (v % 86400 / (len * 60) + 1) * (len * 60)

/-- The end point reckoned from `v` (R143). -/
def endPointAfter (g : Cfg) (v : Nat) : Nat :=
  FeederId.every.foldl
    (fun best i =>
      let b := g.bands.get i
      if b.inUse then min best (nextTimeOfDay v (60 * b.start)) else best)
    (nextMultiple v g.intervalLen)

/-! ### The open interval (8.1) -/

/-- The accumulators of an interval just opened: the fitted feeders with their tenant codes (R152). -/
def freshFeeders (g : Cfg) : Quad (Option FeederAcc) :=
  Quad.ofFn fun n => if g.fitted.get n then some ⟨g.tenant.get n, 0, 0, 0⟩ else none

/-- An interval opened on a valid clock (R143, R152). -/
def openInterval (g : Cfg) (v : Nat) : Interval :=
  { Interval.blank with
    openClock := v, openValid := true, band := takeBand g v, endPoint := some (endPointAfter g v)
    feeders := freshFeeders g }

/-- An interval opened on the invalid clock (R143, R155). -/
def openInvalid (g : Cfg) (v : Nat) : Interval := { Interval.blank with openClock := v, feeders := freshFeeders g }

/-- The BU with its open interval changed, and the record handed to the SR when it is (R142, R161). -/
def withInterval (b : Bu) (i : Interval) : Act Bu :=
  ({ b with interval := i }, if i = b.interval then [] else [.sr (.touch .interval)])

/-- A feeder's accumulators changed. -/
def onFeeder (i : Interval) (n : FeederId) (h : FeederAcc → FeederAcc) : Interval :=
  { i with feeders := i.feeders.put n ((i.feeders.get n).map h) }

/-- One unit of those a total has brought is booked, and the rest behind its effects (R3, R142). -/
def bookUnit (b : Bu) (i : Interval) (rest : Nat) (next : Nat → BuMsg) : Act Bu :=
  (withInterval b i).andThen fun c => (c, if rest = 0 then [] else [.bu (next rest)])

/-- `k` Wh of the set, the first booked now. -/
def bookSet (b : Bu) : Nat → Act Bu
  | 0 => quiet b
  | k + 1 => bookUnit b { b.interval with setE := satAdd max40 b.interval.setE 1 } k .seUnits

/-- `k` Wh of a feeder, the first booked now. -/
def bookFeeder (b : Bu) (n : FeederId) : Nat → Act Bu
  | 0 => quiet b
  | k + 1 => bookUnit b (onFeeder b.interval n fun a => { a with e := satAdd max32 a.e 1 }) k (.fUnits n)

/-- The second mark: the interval seconds, and u of the listed feeders not energised (R145). -/
def markSecond (i : Interval) (s : State) : Interval :=
  { i with
    seconds := i.seconds + 1
    feeders := Quad.ofFn fun n =>
      let listed := s.sc.shedList.any (·.feeder == n)
      let energised := (s.sc.recs.get n).closed && s.fli.inputs.busLive
      (i.feeders.get n).map fun a => if listed && !energised then { a with u := a.u + 1 } else a }

/-! ### The blended rate (8.2) -/

/-- A COST frame (R146). -/
def hearCost (b : Bu) (station endClock e c : Nat) : Bu :=
  if station < 1 ∨ 27 < station ∨ e = 0 then b
  else
    let fresh : CostEntry := ⟨station, endClock, e, c, false⟩
    match b.costPeers.find? (·.station == station) with
    | some x =>
        if x.endClock < endClock then
          { b with costPeers := b.costPeers.map fun y => if y.station == station then fresh else y }
        else b
    | none => if b.costPeers.length < 15 then { b with costPeers := b.costPeers ++ [fresh] } else b

/-- The blended rate of sums ΣE and ΣC (R147). -/
def blendedRate (e c old : Nat) : Nat := if e = 0 then old else clampTo 0 999999 ((c * 100 + e / 2) / e)

/-- Step 1 of a close: the own entry, the table, R; the second component tells RATE HELD (R147). -/
def closeRate (b : Bu) (g : Cfg) (v : Nat) : Bu × Bool :=
  let peers := b.costPeers.filter fun x => decide (v ≤ x.endClock + 2 * g.intervalLen * 60)
  let unused := peers.filter fun x => !x.used
  let e := b.interval.setE + (unused.map (·.e)).sum
  let c := b.interval.setC + (unused.map (·.c)).sum
  ({ b with
      costOwn := some ⟨g.station, v, b.interval.setE, b.interval.setC, false⟩
      costPeers := peers.map fun x => { x with used := true }
      rate := blendedRate e c b.rate }, e == 0)

/-! ### Charges and postings (8.4, 8.9) -/

/-- The e that is charged (R150). -/
def chargedE (e : Nat) : Nat := min e maxCharged

/-- The charge of a feeder in 10⁻⁵ milli (R150). -/
def charge (rate : Nat) (b : BandTaken) (e t : Nat) : Nat := chargedE e * (rate * b.m + 100 * b.s) + t * b.g

/-- A posting to a slot (R151). -/
def Slot.post (x : Slot) (p e t u clock : Nat) : Slot :=
  let q := p + x.carry
  { x with
    lifetime := x.lifetime + q / 100000, running := x.running + q / 100000, carry := q % 100000
    energy := x.energy + e, energised := x.energised + t, shed := x.shed + u
    postings := x.postings + 1, lastClock := some clock }

/-- A slot opened for a code (R153, R154). -/
def Slot.opened (tenant : Nat) (reopened : Bool) : Slot :=
  { Slot.free with tenant := tenant, status := .live, reopened := reopened }

/-- The older of two slots by last posting clock, one that never posted the oldest (R154). -/
def olderSlot (x y : Slot) : Bool :=
  match x.lastClock, y.lastClock with
  | none, some _ => true
  | some a, some b => decide (a < b)
  | _, none => false

/-- The place of the DORMANT slot with the oldest last posting clock, the lowest where equal (R154). -/
def oldestDormant (slots : List Slot) : Option Nat :=
  ((List.range slots.length).foldl
    (fun best i =>
      match slots[i]? with
      | some x =>
          if x.tenant ≠ 0 ∧ x.status = .dormant then
            match best with
            | some (_, y) => if olderSlot x y then some (i, x) else best
            | none => some (i, x)
          else best
      | none => best) none).map Prod.fst

/-- The slot for a tenant code, by its place, and as it stands once it holds the code (R154).  With at most four slots
LIVE one is always found. -/
def findSlot (slots : List Slot) (c : Nat) : Option (Nat × Slot) :=
  match slots.findIdx? (·.tenant == c) with
  | some i => slots[i]?.map fun x => (i, x)
  | none =>
      match slots.findIdx? fun x => x.tenant == 0 && x.reopened with
      | some i => some (i, Slot.opened c true)
      | none =>
          match slots.findIdx? fun x => x.tenant == 0 with
          | some i => some (i, Slot.opened c false)
          | none => (oldestDormant slots).map fun i => (i, Slot.opened c false)

/-- What a close is made with: end clock, band, rate, flags. -/
structure CloseTerms where
  clock : Nat
  band  : BandTaken
  rate  : Nat
  short : Bool
  held  : Bool
  lot   : Bool

/-- The journal ring after a new entry (R157). -/
def journalPut (l : List JournalEntry) (e : JournalEntry) : List JournalEntry :=
  if l.length < 32 then l ++ [e] else l.drop (l.length - 31) ++ [e]

/-- The record of account slot `i`. -/
def slotRecord (i : Nat) : RecordId := .slot (Fin.ofNat 8 i)

/-- The posting of one feeder at a close (R151, R152, R157). -/
def postFeeder (k : CloseTerms) (b : Bu) (n : FeederId) (a : FeederAcc) : Act Bu :=
  match findSlot b.slots a.tenant with
  | none => quiet b
  | some (i, x) =>
      let e := chargedE a.e
      let p := charge k.rate k.band a.e a.t
      let y := x.post p e a.t a.u k.clock
      let number := (b.postingNumber + 1) % 4294967296
      let entry : JournalEntry :=
        { number := number, endClock := k.clock, feeder := n.index, tenant := a.tenant, band := k.band.index,
          rate := k.rate, e := e, t := a.t, charge := (p + x.carry) / 100000, carry := y.carry,
          clamped := decide (maxCharged < a.e), shortInterval := k.short, rateHeld := k.held, lotChange := k.lot }
      ({ b with slots := b.slots.set i y, journal := journalPut b.journal entry, postingNumber := number },
        [.sr (.touch (slotRecord i)), .sr (.touch .journal), .sr (.touch .postingNumber)])

/-- The postings of a close, in ascending feeder index (R152). -/
def postAll (k : CloseTerms) (b : Bu) (accs : Quad (Option FeederAcc)) : Act Bu :=
  FeederId.every.foldl
    (fun x n => x.andThen fun c =>
      match accs.get n with
      | some a => if a.tenant = 0 then quiet c else postFeeder k c n a
      | none => quiet c) (quiet b)

/-! ### Closing an interval (8.5, 8.7) -/

/-- The band of an interval being closed: the one it holds, else the one in force at its opening clock (R155). -/
def closingBand (g : Cfg) (i : Interval) : BandTaken :=
  match i.band with
  | some b => b
  | none => (takeBand g i.openClock).getD ⟨0, 0, 0, 0⟩

/-- Payload of a COST frame (Table 9-9). -/
def costPayload (station v e c : Nat) : List Byte :=
  BitVec.ofNat 8 station :: beBytes 4 v ++ beBytes 5 e ++ beBytes 5 c

/-- The close of the open interval at clock value `v` (R152). -/
def closeInterval (b : Bu) (s : State) (v : Nat) : Act Bu :=
  let i := b.interval
  let r := closeRate b s.cfg v
  let k : CloseTerms :=
    { clock := v, band := closingBand s.cfg i, rate := r.1.rate, short := false, held := r.2, lot := i.lotChange }
  let x := postAll k r.1 i.feeders
  let cost : List Report :=
    if i.setE = 0 then []
    else [.lc (.offer (groupFrame s.cfg .cost 0 (costPayload s.cfg.station v i.setE i.setC)))]
  ({ x.1 with interval := openInterval s.cfg v },
    (if r.1.rate = b.rate then [] else [.sr (.touch .rate)]) ++ x.2 ++ cost ++
    [.pt (.intervalClosed v), .sr (.touch .interval)])

/-- A change of the clock (R143, R144). -/
def clockChange (b : Bu) (s : State) (c : ClockChange) : Act Bu :=
  match c with
  | .becomingValid w =>
      if b.interval.band.isNone then
        withInterval b { b.interval with band := takeBand s.cfg w, endPoint := some (endPointAfter s.cfg w) }
      else quiet b
  | .step v => if b.interval.endPoint = some v then closeInterval b s v else quiet b
  | .jump _ v =>
      match b.interval.endPoint with
      | some e => if e ≤ v then closeInterval b s v else quiet b
      | none => quiet b

/-- The close at a start of the interval found open, at clock value `v` (R155). -/
def startClose (b : Bu) (g : Cfg) (i : Interval) (v : Nat) : Act Bu :=
  postAll { clock := v, band := closingBand g i, rate := b.rate, short := true, held := true, lot := i.lotChange }
    b i.feeders

/-! ### Account slots (8.6) -/

/-- A tenant code is configured on a fitted feeder (R153). -/
def Cfg.bills (g : Cfg) (c : Nat) : Bool :=
  decide (c ≠ 0) && FeederId.every.any fun n => g.fitted.get n && g.tenant.get n == c

/-- The status of a slot under a configuration (R153). -/
def Slot.restate (g : Cfg) (x : Slot) : Slot :=
  { x with status := if g.bills x.tenant then .live else .dormant }

/-- A configured code takes a slot if none holds it (R154). -/
def mapCode (g : Cfg) (b : Bu) (n : FeederId) : Act Bu :=
  let c := g.tenant.get n
  if !g.fitted.get n || c == 0 || b.slots.any (·.tenant == c) then quiet b
  else
    match findSlot b.slots c with
    | some (i, x) => ({ b with slots := b.slots.set i x }, [.sr (.touch (slotRecord i))])
    | none => quiet b

/-- The slots whose content a new status changes are written (R161). -/
def restateReports (old new : List Slot) : List Report :=
  ((List.range new.length).filter fun i => decide (old[i]? ≠ new[i]?)).map fun i => .sr (.touch (slotRecord i))

/-- The accounts mapped to the configuration (R154).  Codes that no slot holds take their slots in ascending feeder index
(the model's choice, log 52). -/
def mapAccounts (b : Bu) (g : Cfg) : Act Bu :=
  let slots := b.slots.map (Slot.restate g)
  FeederId.every.foldl (fun x n => x.andThen fun c => mapCode g c n)
    (({ b with slots := slots }, restateReports b.slots slots) : Act Bu)

/-! ### Statements and queries (8.8, 8.10) -/

/-- A tenant code a tool may name. -/
def codeInRange (c : Nat) : Bool := decide (1 ≤ c) && decide (c ≤ 4095)

/-- A statement in an answer (Table 8-4, log 21). -/
def statementBytes (x : Statement) : List Byte :=
  beBytes 4 x.number ++ beBytes 4 x.clock ++ [flagByte x.clockValid] ++ beBytes 6 x.running ++ beBytes 6 x.energy ++
    beBytes 4 x.energised ++ beBytes 4 x.shed

/-- The statement of a slot at this moment (Table 8-4). -/
def Slot.statement (x : Slot) (clock : Nat) (valid : Bool) : Statement :=
  ⟨x.stmtCount, clock, valid, x.running, x.energy, x.energised, x.shed⟩

/-- The slot after a statement close: at most four statements, the running figures at 0 (R156). -/
def Slot.close (x : Slot) (st : Statement) : Slot :=
  { x with
    statements := (if x.statements.length < 4 then x.statements else x.statements.drop (x.statements.length - 3)) ++ [st]
    running := 0, energy := 0, energised := 0, shed := 0, stmtCount := x.stmtCount + 1 }

/-- STATEMENT CLOSE (R156). -/
def statementClose (b : Bu) (s : State) (ask : Ask) (c : Nat) : Act Bu :=
  if !codeInRange c then (b, [.lc (.answer ask .range [])])
  else
    match b.slots.findIdx? (·.tenant == c) with
    | none => (b, [.lc (.answer ask .state [])])
    | some i =>
        let x := b.slots.getD i .free
        let st := x.statement s.pt.clock s.pt.clockValid
        ({ b with slots := b.slots.set i (x.close st) },
          [.sr (.touch (slotRecord i)), .lc (.answer ask .done (statementBytes st))])

/-- The byte of an account status (R158, log 19). -/
def statusByte (x : Slot) : Byte :=
  Config.accountStatusCode
    (if x.reopened then 2 else match x.status with | .live => 0 | .dormant => 1)

/-- The figures of the feeders that record a code in the open interval (R158). -/
def openFigures (i : Interval) (c : Nat) : List Byte :=
  let of_ := FeederId.every.filterMap fun n =>
    match i.feeders.get n with
    | some a => if a.tenant = c then some (n, a) else none
    | none => none
  BitVec.ofNat 8 of_.length ::
    of_.flatMap fun x => BitVec.ofNat 8 x.1.index :: beBytes 4 x.2.e ++ beBytes 4 x.2.t ++ beBytes 4 x.2.u

/-- An ACCOUNT REPORT (R158, log 21). -/
def accountData (b : Bu) (x : Slot) : List Byte :=
  beBytes 2 x.tenant ++ [statusByte x] ++ beBytes 6 x.lifetime ++ beBytes 6 x.running ++ beBytes 4 x.carry ++
  beBytes 6 x.energy ++ beBytes 4 x.energised ++ beBytes 4 x.shed ++ beBytes 4 x.postings ++ beBytes 4 x.stmtCount ++
  optBytes 4 x.lastClock ++ openFigures b.interval x.tenant

/-- A query on a tenant code (R158, R159). -/
def codeQuery (b : Bu) (ask : Ask) (c : Nat) (data : Slot → List Byte) : List Report :=
  if !codeInRange c then [.lc (.answer ask .range [])]
  else
    match b.slots.find? (·.tenant == c) with
    | some x => [.lc (.answer ask .done (data x))]
    | none => [.lc (.answer ask .state [])]

/-- A journal entry in an answer (R157, log 21). -/
def journalBytes (e : JournalEntry) : List Byte :=
  beBytes 4 e.number ++ beBytes 4 e.endClock ++ [BitVec.ofNat 8 e.feeder] ++ beBytes 2 e.tenant ++
  [BitVec.ofNat 8 e.band] ++ beBytes 4 e.rate ++ beBytes 4 e.e ++ beBytes 4 e.t ++ beBytes 6 e.charge ++
  beBytes 4 e.carry ++ [flagByte e.clamped, flagByte e.shortInterval, flagByte e.rateHeld, flagByte e.lotChange]

/-- The entries a JOURNAL QUERY answers with (R160). -/
def journalFrom (l : List JournalEntry) (n : Nat) : List JournalEntry :=
  (l.dropWhile fun e => decide (e.number < n)).take 4

/-- The data of a JOURNAL QUERY (R160, log 21). -/
def journalData (b : Bu) (n : Nat) : List Byte :=
  (journalFrom b.journal n).flatMap journalBytes ++ beBytes 4 b.postingNumber

/-! ### The unit -/

/-- The BU's act on what reaches it. -/
def buHandle (m : BuMsg) (s : State) : Act Bu :=
  let b := s.bu
  match m with
  | .seTotal t => ({ b with heldSe := t }, [.bu (.seUnits (unitsBetween b.heldSe t))])
  | .fTotal n t => ({ b with heldF := b.heldF.put n t }, [.bu (.fUnits n (unitsBetween (b.heldF.get n) t))])
  | .seUnits k => bookSet b k
  | .fUnits n k => bookFeeder b n k
  | .cost p => withInterval b { b.interval with setC := satAdd max40 b.interval.setC p }
  | .lotChange _ _ => withInterval b { b.interval with lotChange := true }
  | .energised n => withInterval b (onFeeder b.interval n fun a => { a with t := a.t + 1 })
  | .secondMark => withInterval b (markSecond b.interval s)
  | .clock c => clockChange b s c
  | .costFrame station endClock e c => quiet (hearCost b station endClock e c)
  | .statementClose ask c => statementClose b s ask c
  | .accountQuery ask c => (b, codeQuery b ask c (accountData b))
  | .statementQuery ask c => (b, codeQuery b ask c fun x => x.statements.flatMap statementBytes)
  | .journalQuery ask n => (b, [.lc (.answer ask .done (journalData b n))])

end Sys2Proof.Machine
end

