-- ==== Sys2Proof/Machine/Changeover.lean ====
section
/-! DEFINITION. The Changeover Controller (chapter 4, R61 to R87): causes, calls and offers, the pick, the closed and the open transition, partner checks. -/

namespace Sys2Proof.Machine

/-! ### Entering states, frames -/

/-- Entry to a handover state: it is reported to the PT, the DU and the SC, and its aux row goes to the FLI (R61, R87). -/
def ccEnter (c : Cc) (st : Handover) : Act Cc :=
  ({ c with state := st },
    [.pt .ownChanged, .pt .reportable, .du .test, .sc (.handover c.state), .fli (.auxRow st)])

/-- Entry to IDLE: both records close, every timer stops, and a pending cause is tested (R61, R64). -/
def ccIdle (c : Cc) : Act Cc :=
  (ccEnter { c with call := none, inc := none, offerWindow := none, retryWait := none, offerTimer := none,
                    prepTimeout := none, prepLimit := none, gapLimit := none, endWait := none } .idle).andThen
    fun d => (d, [.cc .serve])

/-- A handover frame carrying a call reference and what follows it (Table 9-4). -/
def refFrame (s : State) (k : Kind) (dest caller number : Nat) (rest : List Byte) : Report :=
  .lc (.offer (groupFrame s.cfg k dest ([BitVec.ofNat 8 caller, BitVec.ofNat 8 number] ++ rest)))

def abortFrame (s : State) (dest caller number : Nat) (why : AbortReason) : Report :=
  refFrame s .abort dest caller number [BitVec.ofNat 8 why.code]

def stepFrame (s : State) (dest caller number : Nat) (k : StepKind) : Report :=
  refFrame s .step dest caller number [BitVec.ofNat 8 k.code]

def endFrame (s : State) (dest caller number : Nat) (o : EndOutcome) : Report :=
  refFrame s .ending dest caller number [BitVec.ofNat 8 o.code]

/-- The incoming station of a call, 0 before the pick. -/
def CallRec.to (r : CallRec) : Nat := r.incoming.getD 0

/-- The reference of the call held (R62). -/
def Cc.reference (c : Cc) (own : Nat) : Option (Nat × Nat) :=
  match c.call, c.inc with
  | some r, _ => some (own, r.number)
  | none, some r => some (r.caller, r.number)
  | none, none => none

/-- The test of R62 for READY, STEP, END, ABORT and HOLD. -/
def Cc.takes (c : Cc) (own sender caller number : Nat) : Bool :=
  c.reference own == some (caller, number) && c.partner == sender

/-! ### Calls (R64 to R66, R80) -/

/-- A deferrable cause (Table 4-3). -/
def Cause.deferrable : Cause → Bool
  | .scheduled | .fuelLow => true
  | .fuelCritical => false

/-- Payload of a CALL (Table 9-7). -/
def callPayload (s : State) (number : Nat) (cause : Cause) : List Byte :=
  [BitVec.ofNat 8 number, BitVec.ofNat 8 cause.code] ++ beBytes 2 s.outputKw ++
    [flagByte s.cfg.closedCap, BitVec.ofNat 8 s.cfg.station]

/-- A CALL is sent: a new call number, an empty offer list, the offer window; NO INCOMING and PARTNER LOST clear (R66,
R71, R75). -/
def sendCall (c : Cc) (s : State) (r : CallRec) : Act Cc :=
  let n := (c.counter + 1) % 256
  ({ c with
      counter := n, call := some { r with number := n, offers := [], incoming := none, mode := none, noted := false }
      offerWindow := some 3000, retryWait := none, noIncoming := false, partnerLost := false },
    [.lc (.offer (groupFrame s.cfg .call 0 (callPayload s n r.cause)))])

/-- A CALL is sent and CALL is entered. -/
def callNow (c : Cc) (s : State) (r : CallRec) : Act Cc :=
  (sendCall c s r).andThen fun d => ccEnter d .call

/-- A call record is opened with a cause: HOLD when it is deferred by a show, else CALL (R64, R65, R80). -/
def openCall (c : Cc) (s : State) (cause : Cause) : Act Cc :=
  let r : CallRec :=
    { number := c.counter, cause := cause, attempts := 0, offers := [], incoming := none, mode := none,
      noted := false, outcome := none, lostLate := false, leftBus := false }
  if cause.deferrable && s.pt.figs.showActive then ccEnter { c with call := some r } .hold
  else callNow { c with call := some r } s r

/-- The station may open a call (R64, R65). -/
def mayCall (c : Cc) (s : State) : Bool :=
  s.cfg.setFitted && c.state == .idle && s.du.state == .onbus && !s.lc.duplicate

/-- The test that serves a pending cause (R64). -/
def serve (c : Cc) (s : State) : Act Cc :=
  match c.pending with
  | none => quiet c
  | some p => if mayCall c s then openCall { c with pending := none } s p else quiet c

/-- The state is one in which an outgoing station takes a pending cause at once (R64). -/
def Handover.outgoingCall : Handover → Bool
  | .hold | .call | .prepare | .parallel | .deadbus => true
  | .idle | .offered | .release => false

/-- A pending cause is taken into the call held, or served from IDLE (R64). -/
def absorbPending (c : Cc) (s : State) : Act Cc :=
  match c.pending, c.call with
  | some p, some r =>
      if !c.state.outgoingCall then quiet c
      else
        let c' := { c with pending := none }
        if p.code ≤ r.cause.code then quiet c'
        else
          let r' := { r with cause := p, attempts := 0 }
          if c.state = .hold ∧ !p.deferrable then callNow { c' with call := some r' } s r'
          else quiet { c' with call := some r' }
  | some _, none => serve c s
  | none, _ => quiet c

/-- The pending fuel cause after a change of the threshold state (R63). -/
def pendingAfter (old : Option Cause) (before after : Threshold) : Option Cause :=
  match after, before with
  | .normal, _ => none
  | .critical, _ => some .fuelCritical
  | .low, .normal => if old = some .fuelCritical then old else some .fuelLow
  | .low, .low | .low, .critical => old

/-- A call with a fuel cause (R63). -/
def Cause.fuel : Cause → Bool
  | .scheduled => false
  | .fuelLow | .fuelCritical => true

/-- An outgoing station ends a call from HOLD, CALL or PREPARE with an ABORT to whom R63, R84 and R85 name: all stations
while the offer window runs, the incoming station in PREPARE, none otherwise. -/
def dropCall (c : Cc) (s : State) (r : CallRec) (why : AbortReason) : Act Cc :=
  let x := ccIdle c
  let frame : List Report :=
    if c.state = .prepare then [abortFrame s r.to s.cfg.station r.number why]
    else if c.state = .call ∧ c.offerWindow.isSome then [abortFrame s 0 s.cfg.station r.number why]
    else []
  (x.1, frame ++ x.2)

/-- A change of the threshold state (R63, R64, R68). -/
def thresholdChange (c : Cc) (s : State) (before after : Threshold) : Act Cc :=
  let c' := { c with pending := pendingAfter c.pending before after }
  if c.state = .offered ∧ after ≠ .normal then ccIdle c'
  else
    match c.call with
    | some r =>
        if (c.state = .hold ∨ c.state = .call) ∧ r.cause.fuel ∧ after = .normal then dropCall c' s r .withdrawn
        else absorbPending c' s
    | none => absorbPending c' s

/-! ### Failed attempts (R71) -/

/-- An attempt fails; a call back in CALL is deferred at once if a show is active (R71, R80, R86). -/
def failedAttempt (c : Cc) (s : State) (r : CallRec) : Act Cc :=
  let n := r.attempts + 1
  if n < 3 then
    let c' := { c with
      call := some { r with attempts := n, incoming := none, mode := none, noted := false }
      offerWindow := none, prepLimit := none, retryWait := some 30000 }
    if c.state = .call then quiet c'
    else (ccEnter c' .call).andThen fun d => (d, [.cc (.showActive s.pt.figs.showActive)])
  else ccIdle { c with noIncoming := true }

/-! ### Offers and the pick (R67 to R70) -/

/-- A CALL is answered with an OFFER under these conditions (R67, R37). -/
def mayOffer (c : Cc) (s : State) (needed : Nat) : Bool :=
  c.state == .idle && !s.lc.duplicate && s.cfg.setFitted && s.du.state != .fault && !s.du.breaker &&
  s.fu.threshold == .normal && decide (needed ≤ s.cfg.rating) && s.du.startIntent.isNone

/-- Payload of an OFFER (Table 9-8). -/
def offerPayload (s : State) (caller number : Nat) : List Byte :=
  [BitVec.ofNat 8 caller, BitVec.ofNat 8 number] ++ beBytes 2 s.fu.hours ++ [BitVec.ofNat 8 s.du.state.code] ++
    beBytes 2 s.cfg.rating ++ [flagByte s.cfg.closedCap]

/-- A CALL is taken (R66, R67). -/
def hearCall (c : Cc) (s : State) (caller number needed : Nat) : Act Cc :=
  if mayOffer c s needed then
    let c' := { c with
      inc := some { caller := caller, number := number, mode := none, readySent := false, joinAsked := false }
      offerTimer := some 5000 }
    let x := ccEnter c' .offered
    (x.1, .lc (.offer (groupFrame s.cfg .offer caller (offerPayload s caller number))) :: x.2)
  else quiet c

/-- An offer put into its place in pick rank (R70). -/
def rankOffer (o : Offer) : List Offer → List Offer
  | [] => [o]
  | x :: l => if pickAhead o x then o :: x :: l else x :: rankOffer o l

/-- The offer list after an OFFER: one entry per station, at most 8, the last in rank dropped (R69). -/
def enterOffer (l : List Offer) (o : Offer) : List Offer :=
  (rankOffer o (l.filter fun x => x.station != o.station)).take 8

/-- An OFFER is taken while the offer window runs (R69). -/
def hearOffer (c : Cc) (s : State) (caller number : Nat) (o : Offer) : Act Cc :=
  match c.call with
  | some r =>
      if c.state = .call ∧ c.offerWindow.isSome ∧ caller = s.cfg.station ∧ number = r.number then
        quiet { c with call := some { r with offers := enterOffer r.offers o } }
      else quiet c
  | none => quiet c

/-- The mode of a pick: CLOSED when both stations are closed-capable (R70). -/
def pickMode (own other : Bool) : Mode := if own && other then .closed' else .open'

/-- The offer window expires: the first entry is picked, or the attempt fails (R70, R71).  The set is tested again on
entry to PREPARE (R84, R86). -/
def offerWindowEnd (c : Cc) (s : State) : Act Cc :=
  match c.call with
  | some r =>
      if c.state = .call ∧ c.offerWindow.isSome then
        match r.offers with
        | [] => failedAttempt { c with offerWindow := none } s r
        | o :: _ =>
            let mode := pickMode s.cfg.closedCap o.closedCap
            let c' := { c with
              call := some { r with incoming := some o.station, mode := some mode }
              offerWindow := none, prepLimit := some 160000 }
            let x := ccEnter c' .prepare
            (x.1, refFrame s .pick 0 s.cfg.station r.number [BitVec.ofNat 8 o.station, BitVec.ofNat 8 mode.code] ::
              x.2 ++ [.cc .checkSet])
      else quiet c
  | none => quiet c

/-- The retry wait expires: a new CALL (R71). -/
def retryWaitEnd (c : Cc) (s : State) : Act Cc :=
  match c.call with
  | some r => if c.state = .call ∧ c.retryWait.isSome then sendCall c s r else quiet c
  | none => quiet c

/-- A PICK is taken (R68, R72). -/
def hearPick (c : Cc) (s : State) (sender caller number incoming : Nat) (mode : Mode) : Act Cc :=
  let named := decide (incoming = s.cfg.station)
  let refused : Act Cc := (c, [abortFrame s sender caller number .notAvailable])
  match c.inc with
  | some r =>
      if c.state = .offered ∧ r.caller = caller ∧ r.number = number then
        if named then
          (ccEnter { c with inc := some { r with mode := some mode }, offerTimer := none,
                            prepTimeout := some 150000 } .prepare).andThen
            fun d => (d, [.du .reqStart, .cc .checkReady])
        else ccIdle c
      else if named then refused else quiet c
  | none => if named then refused else quiet c

/-! ### The incoming side (R72, R76, R78, R81) -/

/-- The set of an incoming station that leaves PREPARE or DEADBUS early: stopped on a live bus, left on a dead one
(R81). -/
def treatSet (s : State) : List Report := if s.fli.inputs.busLive then [.du .reqStop] else []

/-- An incoming station returns to IDLE from PREPARE or DEADBUS without its set ONBUS (R81). -/
def giveUp (c : Cc) (s : State) : Act Cc :=
  let x := ccIdle c
  (x.1, treatSet s ++ x.2)

/-- The same with an ABORT to the calling station (R72, R78). -/
def giveUpWith (c : Cc) (s : State) (r : IncRec) (why : AbortReason) : Act Cc :=
  let x := giveUp c s
  (x.1, abortFrame s r.caller r.caller r.number why :: x.2)

/-- READY is sent once; in CLOSED mode the DU is asked to join (R72). -/
def sendReady (c : Cc) (s : State) (r : IncRec) : Act Cc :=
  if r.readySent then quiet c
  else
    let join := decide (r.mode = some .closed')
    ({ c with inc := some { r with readySent := true, joinAsked := r.joinAsked || join } },
      refFrame s .ready r.caller r.caller r.number [] :: (if join then [.du .reqJoin] else []))

/-- The incoming set in PREPARE, as it stands or changes (R72, R74).  In OPEN mode a set found ONBUS, closed by hand,
leaves the station waiting in PREPARE (the model's choice, log 50). -/
def prepareSet (c : Cc) (s : State) (r : IncRec) : Act Cc :=
  match s.du.state with
  | .ready => sendReady c s r
  | .onbus =>
      if r.mode = some .closed' then
        let x := ccEnter { c with prepTimeout := none } .parallel
        (x.1, stepFrame s r.caller r.caller r.number .closed' :: x.2)
      else quiet c
  | .fault => giveUpWith c s r .startFail
  | .stopped | .cranking | .warming | .rampdown | .cooling => quiet c

/-- Entry to incoming RELEASE (R76, R78). -/
def enterIncomingRelease (c : Cc) : Act Cc :=
  ccEnter { c with gapLimit := none, prepTimeout := none, endWait := some 10000 } .release

/-- The outgoing set is off the bus in the peer table (R78). -/
def callerOffBus (s : State) (caller : Nat) : Bool :=
  match s.pt.find caller with
  | some e => !e.fields.onBus
  | none => false

/-- Incoming DEADBUS, tested at entry and at every change it waits for (R78, R86). -/
def checkDeadbus (c : Cc) (s : State) : Act Cc :=
  match c.inc with
  | some r =>
      if c.state ≠ .deadbus then quiet c
      else if s.du.state = .onbus then
        let x := enterIncomingRelease c
        (x.1, stepFrame s r.caller r.caller r.number .closed' :: x.2)
      else if !r.joinAsked && (!s.fli.inputs.busLive || callerOffBus s r.caller) then
        ({ c with inc := some { r with joinAsked := true } }, [.du .reqJoin])
      else quiet c
  | none => quiet c

/-- Entry to incoming DEADBUS (R78). -/
def enterIncomingDeadbus (c : Cc) (r : IncRec) : Act Cc :=
  (ccEnter { c with inc := some { r with joinAsked := false }, prepTimeout := none, gapLimit := some 10000 }
    .deadbus).andThen fun d => (d, [.cc .checkDeadbus])

/-! ### The outgoing side (R73 to R77, R79) -/

/-- Entry to outgoing PARALLEL, and the ramp asked for (R74). -/
def enterOutgoingParallel (c : Cc) : Act Cc :=
  (ccEnter { c with prepLimit := none } .parallel).andThen fun d => (d, [.du .reqRamp])

/-- Entry to outgoing RELEASE; a set not cooling ends it (R77, R79, R86). -/
def enterOutgoingRelease (c : Cc) : Act Cc :=
  (ccEnter { c with gapLimit := none, prepLimit := none } .release).andThen fun d => (d, [.cc .checkRelease])

/-- READY in PREPARE: noted in CLOSED mode, the beginning of the open transition in OPEN mode (R73, R77). -/
def takeReady (c : Cc) (s : State) (r : CallRec) : Act Cc :=
  if c.state ≠ .prepare then quiet c
  else
    match r.mode with
    | none => quiet c
    | some .closed' => quiet { c with call := some { r with noted := true } }
    | some .open' =>
        if r.cause.deferrable && s.pt.figs.showActive then quiet c
        else
          let x := (ccEnter { c with prepLimit := none, gapLimit := some 10000 } .deadbus).andThen
            fun d => (d, [.du .reqTrip])
          (x.1, stepFrame s r.to s.cfg.station r.number .opening :: x.2)

/-- STEP (CLOSED) at the outgoing station (R74, R77). -/
def takeClosed (c : Cc) (s : State) (r : CallRec) : Act Cc :=
  let done := endFrame s r.to s.cfg.station r.number .normal
  match c.state with
  | .prepare => if r.mode = some .closed' then enterOutgoingParallel c else quiet c
  | .deadbus =>
      let x := enterOutgoingRelease c
      (x.1, done :: x.2)
  | .release => (c, [done])
  | .idle | .hold | .call | .offered | .parallel => quiet c

/-- The partner is lost, mismatched or aborts in outgoing PARALLEL (R75). -/
def parallelLoss (c : Cc) (r : CallRec) : Act Cc :=
  if r.outcome.isSome then quiet { c with call := some { r with lostLate := true } }
  else
    let x := ccIdle { c with partnerLost := true }
    (x.1, .du .reqResume :: x.2)

/-- The outgoing set changes in PARALLEL (R75). -/
def parallelSet (c : Cc) (s : State) (r : CallRec) (after : SetState) : Act Cc :=
  match after with
  | .cooling | .stopped =>
      let x := enterOutgoingRelease { c with partnerLost := c.partnerLost || r.lostLate }
      (x.1, endFrame s r.to s.cfg.station r.number (r.outcome.getD (unstatedOutcome r.number)) :: x.2)
  | .fault =>
      let x := ccIdle c
      (x.1, endFrame s r.to s.cfg.station r.number .fault :: x.2)
  | .cranking | .warming | .ready | .onbus | .rampdown => quiet c

/-- The set state changes at an outgoing station (R75, R79, R84); in DEADBUS its leaving the bus is marked (R77). -/
def outgoingSet (c : Cc) (s : State) (r : CallRec) (before after : SetState) : Act Cc :=
  match c.state with
  | .hold | .call | .prepare => if before = .onbus ∧ after ≠ .onbus then dropCall c s r .offBus else quiet c
  | .parallel => parallelSet c s r after
  | .deadbus =>
      quiet (if after = .onbus ∨ after = .rampdown then c else { c with call := some { r with leftBus := true } })
  | .release => if after ≠ .cooling then ccIdle c else quiet c
  | .idle | .offered => quiet c

/-- The set state changes at a standby or incoming station (R68, R72, R76, R78). -/
def incomingSet (c : Cc) (s : State) (r : IncRec) (after : SetState) : Act Cc :=
  match c.state with
  | .offered => if after = .fault ∨ after = .onbus then ccIdle c else quiet c
  | .prepare => prepareSet c s r
  | .parallel =>
      if after = .onbus ∨ after = .rampdown then quiet c
      else
        let x := ccIdle c
        (x.1, abortFrame s r.caller r.caller r.number .offBus :: x.2)
  | .deadbus => checkDeadbus c s
  | .idle | .hold | .call | .release => quiet c

/-- A change of the set state (R59, R64). -/
def setChanged (c : Cc) (s : State) (before after : SetState) : Act Cc :=
  match c.call, c.inc with
  | some r, _ => outgoingSet c s r before after
  | none, some r => incomingSet c s r after
  | none, none => serve c s

/-! ### Shows (R80) -/

/-- Show active changes (R80). -/
def showChange (c : Cc) (s : State) (active : Bool) : Act Cc :=
  match c.call with
  | none => quiet c
  | some r =>
      match c.state, active with
      | .hold, false => callNow c s r
      | .call, true =>
          if r.cause.deferrable then
            let x := ccEnter { c with offerWindow := none, retryWait := none } .hold
            (x.1, (if c.offerWindow.isSome then [refFrame s .hold 0 s.cfg.station r.number []] else []) ++ x.2)
          else quiet c
      | .prepare, true =>
          if r.cause.deferrable ∧ r.mode = some .open' then
            let x := ccEnter { c with
              call := some { r with incoming := none, mode := none, noted := false }, prepLimit := none } .hold
            (x.1, refFrame s .hold r.to s.cfg.station r.number [] :: x.2)
          else quiet c
      | _, _ => quiet c

/-! ### Loss of the partner and Table 4-7 (R83) -/

/-- The partner is lost, or shows a state its row does not accept (Table 4-7, last column). -/
def partnerGone (c : Cc) (s : State) : Act Cc :=
  match c.call, c.inc with
  | some r, _ =>
      match c.state with
      | .prepare => failedAttempt c s r
      | .parallel => parallelLoss c r
      | .deadbus => enterOutgoingRelease c
      | .idle | .hold | .call | .offered | .release => quiet c
  | none, some _ =>
      match c.state with
      | .offered | .parallel | .release => ccIdle c
      | .prepare | .deadbus => giveUp c s
      | .idle | .hold | .call => quiet c
  | none, none => quiet c

/-- The partner's handover states a row of Table 4-7 accepts; an outgoing RELEASE makes no check. -/
def acceptedShown (outgoing : Bool) (own shown : Handover) : Bool :=
  match outgoing, own with
  | false, .offered => shown == .call || shown == .prepare
  | false, .prepare => shown == .prepare || shown == .deadbus
  | false, .parallel => shown == .prepare || shown == .parallel || shown == .release
  | false, .deadbus => shown == .prepare || shown == .deadbus || shown == .release
  | false, .release => shown == .parallel || shown == .deadbus
  | true, .prepare => shown == .offered || shown == .prepare || shown == .parallel
  | true, .parallel => shown == .prepare || shown == .parallel || shown == .release
  | true, .deadbus => shown == .prepare || shown == .deadbus || shown == .release
  | _, _ => true

/-- A row of Table 4-7 stands for the own side and state. -/
def checkedRow (outgoing : Bool) (own : Handover) : Bool :=
  match outgoing, own with
  | false, .offered | false, .prepare | false, .parallel | false, .deadbus | false, .release => true
  | true, .prepare | true, .parallel | true, .deadbus => true
  | _, _ => false

/-- A partner's STATE that its row takes as a frame (Table 4-7, third column). -/
def takeShown (c : Cc) (s : State) (f : PeerFields) : Act Cc :=
  match c.call, c.inc with
  | some r, _ =>
      match c.state, f.handover with
      | .prepare, .prepare => if f.setState = .ready then takeReady c s r else quiet c
      | .prepare, .parallel => if f.onBus then takeClosed c s r else quiet c
      | .deadbus, .release => if f.onBus then takeClosed c s r else quiet c
      | _, _ => quiet c
  | none, some r =>
      match c.state, f.handover with
      | .prepare, .deadbus => if r.mode = some .open' then enterIncomingDeadbus c r else quiet c
      | .parallel, .release => enterIncomingRelease c
      | .deadbus, _ => checkDeadbus c s
      | _, _ => quiet c
  | none, none => quiet c

/-- A STATE frame of a station has been taken: the partner check; a partner field other than the own number is a
mismatch in every row (R83), also in OFFERED beside a caller still in CALL, which names no partner (log 22). -/
def hearPartner (c : Cc) (s : State) (station : Nat) : Act Cc :=
  if c.partner ≠ station ∨ !checkedRow c.call.isSome c.state then quiet c
  else
    match s.pt.find station with
    | none => quiet c
    | some e =>
        if acceptedShown c.call.isSome c.state e.fields.handover && e.fields.partner == s.cfg.station then
          takeShown c s e.fields
        else partnerGone c s

/-- A peer is lost: it leaves the offer list, and a lost partner ends the relation (R69, R83). -/
def ccPeerLost (c : Cc) (s : State) (station : Nat) : Act Cc :=
  if c.partner = station ∧ checkedRow c.call.isSome c.state then partnerGone c s
  else
    match c.call with
    | some r =>
        if c.state = .call ∧ c.offerWindow.isSome then
          quiet { c with call := some { r with offers := r.offers.filter fun o => o.station != station } }
        else quiet c
    | none => quiet c

/-! ### The partner's frames (R62) -/

/-- A STEP that passes R62. -/
def takeStep (c : Cc) (s : State) (k : Option StepKind) : Act Cc :=
  match c.call, c.inc with
  | some r, _ => if k = some .closed' then takeClosed c s r else quiet c
  | none, some r =>
      match c.state, k with
      | .prepare, some .opening => if r.mode = some .open' then enterIncomingDeadbus c r else quiet c
      | .parallel, some .opened => enterIncomingRelease c
      | _, _ => quiet c
  | none, none => quiet c

/-- An END that passes R62 (R76). -/
def takeEnd (c : Cc) : Act Cc :=
  if c.inc.isSome ∧ (c.state = .parallel ∨ c.state = .release) then ccIdle c else quiet c

/-- An ABORT that passes R62: its reason is kept, and does not change what follows (R82). -/
def takeAbort (c : Cc) (s : State) (why : Byte) : Act Cc := partnerGone { c with abortReason := some why } s

/-- A HOLD that passes R62 (R80, R82). -/
def takeHold (c : Cc) (s : State) : Act Cc :=
  if c.inc.isNone then quiet c
  else
    match c.state with
    | .offered => ccIdle c
    | .prepare => giveUp c s
    | .idle | .hold | .call | .parallel | .deadbus | .release => quiet c

/-! ### The DU's answers, timers, tools -/

/-- START FAIL from the DU (R72). -/
def ccStartFail (c : Cc) (s : State) : Act Cc :=
  match c.inc with
  | some r => if c.state = .prepare then giveUpWith c s r .startFail else quiet c
  | none => quiet c

/-- The join the CC asked for has failed (R72). -/
def ccJoinFail (c : Cc) (s : State) : Act Cc :=
  match c.inc with
  | some r => if c.state = .prepare ∧ r.joinAsked then giveUpWith c s r .joinFail else quiet c
  | none => quiet c

/-- TRIP FAIL from the DU: an outgoing station in DEADBUS ends the handover (R77). -/
def ccTripFail (c : Cc) (s : State) : Act Cc :=
  match c.call with
  | some r =>
      if c.state = .deadbus then
        let x := ccIdle c
        (x.1, abortFrame s r.to s.cfg.station r.number .tripFail :: x.2)
      else quiet c
  | none => quiet c

/-- The ramp is refused: the set is no longer ONBUS (R74, R84). -/
def ccRampRefused (c : Cc) (s : State) : Act Cc :=
  match c.call with
  | some r =>
      if c.state = .parallel then
        let x := ccIdle c
        (x.1, abortFrame s r.to s.cfg.station r.number .offBus :: x.2)
      else quiet c
  | none => quiet c

/-- The ramp is abandoned with no TRIP issued (R75). -/
def ccRampAbandoned (c : Cc) (s : State) : Act Cc :=
  match c.call with
  | some r =>
      if c.state = .parallel then
        let x := ccIdle { c with partnerLost := true }
        (x.1, endFrame s r.to s.cfg.station r.number .abandoned :: x.2)
      else quiet c
  | none => quiet c

/-- TRIP is issued in the ramp (R75). -/
def ccTripIssued (c : Cc) (s : State) (o : EndOutcome) : Act Cc :=
  match c.call with
  | some r =>
      if c.state = .parallel then
        ({ c with call := some { r with outcome := some o } },
          [stepFrame s r.to s.cfg.station r.number .opened])
      else quiet c
  | none => quiet c

/-- The set of a call just picked is tested (R84, R86). -/
def checkSet (c : Cc) (s : State) : Act Cc :=
  match c.call with
  | some r => if c.state = .prepare ∧ s.du.state ≠ .onbus then dropCall c s r .offBus else quiet c
  | none => quiet c

/-- Outgoing RELEASE entered with the set not cooling is left at once; a set ONBUS that has not left the bus since the
transition began awaits its trip (R79, R86, log 24). -/
def checkRelease (c : Cc) (s : State) : Act Cc :=
  match c.call with
  | some r =>
      if c.state = .release ∧ s.du.state ≠ .cooling ∧ (s.du.state ≠ .onbus ∨ r.leftBus) then ccIdle c else quiet c
  | none => quiet c

/-- The set of a station just picked is tested (R72, R86). -/
def checkReady (c : Cc) (s : State) : Act Cc :=
  match c.inc with
  | some r => if c.state = .prepare then prepareSet c s r else quiet c
  | none => quiet c

/-- The prepare limit expires (R71). -/
def prepLimitEnd (c : Cc) (s : State) : Act Cc :=
  match c.call with
  | some r =>
      if c.state = .prepare ∧ c.prepLimit.isSome then
        let x := failedAttempt c s r
        (x.1, abortFrame s r.to s.cfg.station r.number .timeout :: x.2)
      else quiet c
  | none => quiet c

/-- The prepare timeout expires (R72). -/
def prepTimeoutEnd (c : Cc) (s : State) : Act Cc :=
  match c.inc with
  | some r => if c.state = .prepare ∧ c.prepTimeout.isSome then giveUpWith c s r .startFail else quiet c
  | none => quiet c

/-- The gap limit expires (R77, R78). -/
def gapLimitEnd (c : Cc) (s : State) : Act Cc :=
  if c.state ≠ .deadbus ∨ c.gapLimit.isNone then quiet c
  else
    match c.call, c.inc with
    | some _, _ => enterOutgoingRelease c
    | none, some r => giveUpWith c s r .gap
    | none, none => quiet c

/-- A HANDOVER REQUEST (R65). -/
def ccHandoverRequest (c : Cc) (s : State) (ask : Ask) : Act Cc :=
  if mayCall c s then (openCall c s .scheduled).andThen fun d => (d, [.lc (.answer ask .done [])])
  else (c, [.lc (.answer ask .state [])])

/-- A HANDOVER ABORT (R85). -/
def ccHandoverAbort (c : Cc) (s : State) (ask : Ask) : Act Cc :=
  let refused : Act Cc := (c, [.lc (.answer ask .state [])])
  match c.call with
  | some r =>
      match c.state with
      | .hold | .call | .prepare => (dropCall c s r .tool).andThen fun d => (d, [.lc (.answer ask .done [])])
      | .idle | .offered | .parallel | .deadbus | .release => refused
  | none => refused

/-- The CC's act on what reaches it. -/
def ccHandle (m : CcMsg) (s : State) : Act Cc :=
  let c := s.cc
  let own := s.cfg.station
  match m with
  | .threshold before after => thresholdChange c s before after
  | .setChanged before after => setChanged c s before after
  | .startFail => ccStartFail c s
  | .joinFail => ccJoinFail c s
  | .tripFail => ccTripFail c s
  | .rampRefused => ccRampRefused c s
  | .rampAbandoned => ccRampAbandoned c s
  | .tripIssued o => ccTripIssued c s o
  | .busLive _ => checkDeadbus c s
  | .showActive b => showChange c s b
  | .peerLost n => ccPeerLost c s n
  | .partnerState n => hearPartner c s n
  | .serve => serve c s
  | .checkReady => checkReady c s
  | .checkSet => checkSet c s
  | .checkDeadbus => checkDeadbus c s
  | .checkRelease => checkRelease c s
  | .callFrame caller number needed => hearCall c s caller number needed
  | .offerFrame caller number o => hearOffer c s caller number o
  | .pickFrame sender caller number incoming mode => hearPick c s sender caller number incoming mode
  | .readyFrame sender caller number =>
      match c.call with
      | some r => if c.takes own sender caller number then takeReady c s r else quiet c
      | none => quiet c
  | .stepFrame sender caller number k => if c.takes own sender caller number then takeStep c s k else quiet c
  | .endFrame sender caller number => if c.takes own sender caller number then takeEnd c else quiet c
  | .abortFrame sender caller number why => if c.takes own sender caller number then takeAbort c s why else quiet c
  | .holdFrame sender caller number => if c.takes own sender caller number then takeHold c s else quiet c
  | .offerWindow => offerWindowEnd c s
  | .offerTimer => if c.state = .offered ∧ c.offerTimer.isSome then ccIdle c else quiet c
  | .retryWait => retryWaitEnd c s
  | .prepLimit => prepLimitEnd c s
  | .prepTimeout => prepTimeoutEnd c s
  | .gapLimit => gapLimitEnd c s
  | .endWait => if c.state = .release ∧ c.endWait.isSome then ccIdle c else quiet c
  | .handoverRequest ask => ccHandoverRequest c s ask
  | .handoverAbort ask => ccHandoverAbort c s ask

end Sys2Proof.Machine
end

