-- ==== Sys2Proof/Machine/FieldLines.lean ====
section
/-! DEFINITION. The Field Line Interface (chapter 1, R9 to R19): contact inputs, command pulses, feedback confirm, VALVE, AUX. -/

namespace Sys2Proof.Machine

/-- The level the feedback of a command reaches when the command has taken effect (Table 1-3). -/
def Sense.target : Sense → Bool
  | .on => true
  | .off => false

/-- The feedback input of a device; the set has none of the FLI's confirms (Table 1-3). -/
def feedback (l : Levels) : Device → Option Bool
  | .genset => none
  | .breaker => some l.brk
  | .feeder n => some (l.ffb.get n)

/-- The report of a confirm completed as confirmed to the requester (R11 to R13). -/
def confirmedReport (d : Device) (c : Sense) : List Report :=
  match d with
  | .genset => []
  | .breaker => [.du (.confirmed c)]
  | .feeder n => [.sc (.confirmed n c)]

/-- The report of a confirm completed as failed to the requester (R11 to R13). -/
def failedReport (d : Device) (c : Sense) : List Report :=
  match d with
  | .genset => []
  | .breaker => [.du (.failed c)]
  | .feeder n => [.sc (.failed n c)]

/-- The breaker-failure condition after a confirm of `d` completes as `failed` or confirmed (R12). -/
def breakerFailAfter (d : Device) (failed old : Bool) : Bool :=
  match d with
  | .breaker => failed
  | .genset | .feeder _ => old

/-- A command is pulsed: its pulse begins, and its confirm with it, replacing one still running for the contrary
command; a feedback already at the target confirms it at once (R10, R11). -/
def fliIssue (x : Fli) (d : Device) (c : Sense) : Act Fli :=
  match feedback x.inputs d with
  | none => quiet (x.putDev d ⟨some c, none, none⟩)
  | some level =>
      if level = c.target then
        ({ x.putDev d ⟨some c, none, none⟩ with breakerFail := breakerFailAfter d false x.breakerFail },
          confirmedReport d c)
      else quiet (x.putDev d ⟨some c, none, some c⟩)

/-- A command handed to the FLI: absorbed, deferred or issued (R10). -/
def fliCommand (x : Fli) (d : Device) (c : Sense) : Act Fli :=
  let v := x.dev d
  match v.pulse with
  | some p =>
      if p = c then quiet (x.putDev d { v with deferred := none })
      else quiet (x.putDev d { v with deferred := some c })
  | none => if v.confirm = some c then quiet x else fliIssue x d c

/-- A running pulse ends; a deferred command is issued at once (R10). -/
def fliPulseEnd (x : Fli) (d : Device) : Act Fli :=
  let v := x.dev d
  match v.pulse, v.deferred with
  | none, _ => quiet x
  | some _, none => quiet (x.putDev d { v with pulse := none })
  | some _, some c => fliIssue (x.putDev d { v with pulse := none, deferred := none }) d c

/-- A running confirm's limit expires: the command has failed (R11, R12). -/
def fliLimit (x : Fli) (d : Device) : Act Fli :=
  let v := x.dev d
  match v.confirm with
  | none => quiet x
  | some c =>
      ({ x.putDev d { v with confirm := none } with breakerFail := breakerFailAfter d true x.breakerFail },
        failedReport d c)

/-- The change of a feedback input is offered to the confirm running for it: a change to the target completes it, a
change away leaves it running, and without one the change is uncommanded (R9, R11, R106). -/
def fliFeedback (x : Fli) (d : Device) (level : Bool) (uncommanded : List Report) : Act Fli :=
  let v := x.dev d
  match v.confirm with
  | none => (x, uncommanded)
  | some c =>
      if level = c.target then
        ({ x.putDev d { v with confirm := none } with breakerFail := breakerFailAfter d false x.breakerFail },
          confirmedReport d c)
      else quiet x

/-- VALVE as a contact goes to a level: FILL KEY off and HIGH LEVEL active drive it inactive (R15). -/
def valveAfter (i : Input) (b valve : Bool) : Bool :=
  match i with
  | .fillKey => valve && b
  | .highLevel => valve && !b
  | .running | .ready | .brk | .fault | .busLive | .syncOk | .ffb _ | .showSwitch | .lock => valve

/-- An input takes a new state, and the change is reported to the units of Table 1-2 (R9, R15). -/
def fliTake (x : Fli) (i : Input) (b : Bool) : Act Fli :=
  let x' := { x with inputs := setInput x.inputs i b, valve := valveAfter i b x.valve }
  match i with
  | .running => (x', [.du (.running b)])
  | .ready => (x', [.du (.readyInput b)])
  | .brk => fliFeedback x' .breaker b [.du (.uncommanded b)]
  | .fault => (x', [.du (.faultInput b)])
  | .busLive => (x', [.du (.busLive b), .cc (.busLive b), .sc (.busLive b)])
  | .syncOk => (x', [.du (.syncOk b)])
  | .ffb n => fliFeedback x' (.feeder n) b [.sc (.uncommanded n b)]
  | .fillKey => (x', [.fu (.fillKey b)])
  | .highLevel => (x', [.fu (.highLevel b)])
  | .showSwitch => (x', [.pt .showChanged])
  | .lock => quiet x'

/-- A contact change of a start is kept, its report with it; VALVE follows at once (R15, R177). -/
def fliKeep (x : Fli) (i : Input) (b : Bool) : Act Fli :=
  quiet { x with kept := x.kept ++ [(i, b)], valve := valveAfter i b x.valve }

/-- An input is found at a level: nothing when that is its state already (R9). -/
def fliChange (x : Fli) (i : Input) (b : Bool) : Act Fli :=
  if inputLevel x.inputs i = b then quiet x else fliTake x i b

/-- The first of the kept changes is reported (R177). -/
def fliReportKept (x : Fli) : Act Fli :=
  match x.kept with
  | [] => quiet x
  | k :: rest => fliChange { x with kept := rest } k.1 k.2

/-- A level held at an input for `held` ms: taken after 20 ms, kept for the end of start-up between step 5 and there,
nothing before step 5 or at an input not in use (R9, R177). -/
def fliLevel (i : Input) (b : Bool) (held : Nat) (s : State) : Act Fli :=
  if !s.cfg.inputInUse i || decide (held < 20) || !s.pastStep 5 then quiet s.fli
  else if s.isRunning then fliChange s.fli i b
  else fliKeep s.fli i b

/-- The FLI's act on what reaches it.  VALVE opens only with FILL KEY on and HIGH LEVEL inactive (R15, log 57); an aux
row is applied from step 9 of a start onward (R17, R87). -/
def fliHandle (m : FliMsg) (s : State) : Act Fli :=
  match m with
  | .level i b held => fliLevel i b held s
  | .command d c => fliCommand s.fli d c
  | .pulseEnd d => fliPulseEnd s.fli d
  | .limit d => fliLimit s.fli d
  | .valve openIt =>
      quiet { s.fli with
        valve := openIt && s.fli.mayFill && s.cfg.tankFitted }
  | .auxRow st =>
      if s.pastStep 9 then quiet { s.fli with aux := s.cfg.aux.getD st.code 0 } else quiet s.fli
  | .reportKept => fliReportKept s.fli

end Sys2Proof.Machine
end

