-- ==== Sys2Proof/Machine/Fuel.lean ====
section
/-! DEFINITION. The Fuel Unit (chapters 6 and 7, R107 to R141): lots, burns, fills, hours-to-dry, thresholds, reconciliation, deliveries, claims and visits. -/

namespace Sys2Proof.Machine

/-! ### Lots, burns and fills (6.1 to 6.3) -/

/-- The largest overdraw (R108). -/
def maxOverdraw : Nat := 500000

/-- A lot's number and price, as LOT CHANGE carries them (R110). -/
def Lot.label (l : Lot) : Nat × Nat := (l.number, l.price)

/-- The LOT CHANGE of a removed lot with the queue behind it (R110). -/
def lotChange (removed : Lot) (rest : List Lot) : Report :=
  .bu (.lotChange removed.label (rest.head?.map Lot.label))

/-- One burned decilitre (R109 to R111). -/
def burnOne (f : Fu) : Act Fu :=
  match f.lots with
  | [] =>
      if f.overdraw < maxOverdraw then
        ({ f with overdraw := f.overdraw + 1 }, [.bu (.cost f.heldPrice), .sr (.touch .fuelBook)])
      else (f, [.bu (.cost f.heldPrice)])
  | l :: rest =>
      if l.remaining ≤ 1 then
        ({ f with lots := rest, heldPrice := l.price },
          [.bu (.cost l.price), lotChange l rest, .sr (.touch .fuelBook)])
      else
        ({ f with lots := { l with remaining := l.remaining - 1 } :: rest },
          [.bu (.cost l.price), .sr (.touch .fuelBook)])

/-- A lot of the queue carries a delivery number (R112, R131, R133). -/
def Fu.carries (f : Fu) (number : Nat) : Bool := f.lots.any (·.number == number)

/-- One decilitre into the lot of a number, wherever it stands (R112, R140). -/
def fillLot (number : Nat) (l : Lot) : Lot :=
  if l.number = number then { l with delivered := l.delivered + 1, remaining := l.remaining + 1 } else l

/-- A visit in progress (R133). -/
def Visit.inProgress (v : Visit) : Bool :=
  match v.state with
  | .flowing | .paused _ => true
  | .ended _ => false

/-- One fill decilitre of a visit in progress: repayment, the lot of the number, or a new lot (R112, R113). -/
def fillOne (f : Fu) (clock : Nat) (clockValid : Bool) (v : Visit) : Fu :=
  let v₁ := { v with visitDl := v.visitDl + 1 }
  let stall := if v.state = .flowing then some 120000 else f.flowStall
  if 0 < f.overdraw then
    { f with overdraw := f.overdraw - 1, flowStall := stall
             visit := some { v₁ with repaidDl := v.repaidDl + 1, repaying := true } }
  else if f.carries v.number then
    { f with lots := f.lots.map (fillLot v.number), flowStall := stall, visit := some { v₁ with repaying := false } }
  else
    { f with
      lots := f.lots ++ [{ number := v.number, price := v.price, remaining := 1, clock := clock,
                           clockValid := clockValid, delivered := if v.repaying then v.repaidDl + 1 else 1 }]
      flowStall := stall, visit := some { v₁ with repaying := false } }

/-! ### Hours-to-dry and thresholds (6.4, 6.5) -/

/-- The burn rate for H: the BF figure when above 0, else the standby rate (R116). -/
def burnRate (s : State) : Nat := if 0 < s.pcu.bf.figure then s.pcu.bf.figure else s.cfg.standby

/-- H from a book and a rate (R116). -/
def hoursOf (book : Int) (rate : Nat) : Nat :=
  if book ≤ 0 then 0 else if rate = 0 then 9999 else clampTo 0 9999 (book.toNat * 10 / rate)

/-- Table 6-3. -/
def nextThreshold (low critical : Nat) (st : Threshold) (h : Nat) : Threshold :=
  if h ≤ critical then .critical
  else if low + 10 ≤ h then .normal
  else
    match st with
    | .normal => if h ≤ low then .low else .normal
    | .low => .low
    | .critical => if critical + 10 ≤ h then .low else .critical

/-- The reports of a threshold state: to the CC, the DU and the PT (R119). -/
def thresholdReports (before after : Threshold) : List Report :=
  if before = after then [] else [.cc (.threshold before after), .du .test, .pt .reportable]

/-- H computed and the threshold state evaluated (R117, R119). -/
def computeHours (f : Fu) (s : State) : Act Fu :=
  let h := hoursOf f.book (burnRate s)
  let t := nextThreshold s.cfg.low s.cfg.critical f.threshold h
  ({ f with hours := h, threshold := t }, thresholdReports f.threshold t)

/-! ### Pauses (7.4) -/

/-- The book stands at or above the fill limit quantity Kf (R131, R136). -/
def atLimit (f : Fu) (s : State) : Bool := decide ((s.cfg.fillLimitDl : Int) ≤ f.book)

/-- The pause test (R136). -/
def pauseTest (f : Fu) (s : State) : Option PauseCause :=
  if !s.fli.inputs.fillKey then some .keyOff
  else if s.fli.inputs.highLevel then some .highLevel
  else if atLimit f s then some .fillLimit
  else none

/-- Entry to PAUSED (R135, R136). -/
def enterPaused (f : Fu) (v : Visit) (c : PauseCause) : Act Fu :=
  ({ f with visit := some { v with state := .paused c }, flowStall := none, pauseTimer := some 600000 },
    [.fli (.valve false)])

/-- Entry to FLOWING (R134, R135, R137). -/
def enterFlowing (f : Fu) (v : Visit) : Act Fu :=
  ({ f with visit := some { v with state := .flowing }, flowStall := some 120000, pauseTimer := none },
    [.fli (.valve true)])

/-- A pause cause has cleared: the pause test again (R137). -/
def causeCleared (f : Fu) (s : State) (v : Visit) : Act Fu :=
  match pauseTest f s with
  | some c => quiet { f with visit := some { v with state := .paused c } }
  | none => enterFlowing f v

/-- The book is handed to the visit logic (R108, R136, R137). -/
def bookTest (f : Fu) (s : State) : Act Fu :=
  match f.visit with
  | none => quiet f
  | some v =>
      match v.state with
      | .flowing => if atLimit f s then enterPaused f v .fillLimit else quiet f
      | .paused .fillLimit => if atLimit f s then quiet f else causeCleared f s v
      | .paused .keyOff | .paused .highLevel | .paused .flowStall | .ended _ => quiet f

/-- `n` burned decilitres, the first booked now and the rest behind its effects (R109, R117). -/
def fuBurn (f : Fu) (s : State) : Nat → Act Fu
  | 0 => quiet f
  | n + 1 => ((burnOne f).andThen fun g => bookTest g s).andThen fun g => (g, if n = 0 then [] else [.fu (.burn n)])

/-- `n` fill decilitres (R112 to R114, R117, R138). -/
def fuFill (f : Fu) (s : State) : Nat → Act Fu
  | 0 => quiet f
  | n + 1 =>
      match f.visit with
      | some v =>
          if v.inProgress then
            let x : Act Fu := (fillOne f s.pt.clock s.pt.clockValid v, [.sr (.touch .fuelBook)])
            ((x.andThen fun g => bookTest g s).andThen fun g => computeHours g s).andThen fun g =>
              (g, if n = 0 then [] else [.fu (.fill n)])
          else quiet { f with unbooked := satAdd max32 f.unbooked (n + 1) }
      | none => quiet { f with unbooked := satAdd max32 f.unbooked (n + 1) }

/-! ### Reconciliation (6.6) -/

/-- What a shrink leaves: the queue, the held price, the value, the LOT CHANGE reports (R122). -/
structure Shrunk where
  lots      : List Lot
  heldPrice : Nat
  value     : Nat
  reports   : List Report

/-- `q` decilitres taken from the lots, oldest first (R122). -/
def shrinkLots (held : Nat) : List Lot → Nat → Shrunk
  | [], _ => ⟨[], held, 0, []⟩
  | l :: rest, q =>
      if q = 0 then ⟨l :: rest, held, 0, []⟩
      else if q < l.remaining then ⟨{ l with remaining := l.remaining - q } :: rest, held, q * l.price, []⟩
      else
        let r := shrinkLots l.price rest (q - l.remaining)
        { r with value := l.remaining * l.price + r.value, reports := lotChange l rest :: r.reports }

/-- `g` decilitres of gain entered into a queue (R123). -/
def gainLots (lots : List Lot) (held g clock : Nat) (clockValid : Bool) : List Lot :=
  match lots.getLast? with
  | none => [⟨0, held, g, g, clock, clockValid⟩]
  | some l =>
      if l.number = 0 ∨ 8 ≤ lots.length then
        lots.dropLast ++ [{ l with delivered := l.delivered + g, remaining := l.remaining + g }]
      else lots ++ [⟨0, l.price, g, g, clock, clockValid⟩]

/-- The reconciliation record of a run (Table 6-4). -/
def reconRecord (f : Fu) (s : State) (origin : ReconOrigin) (p : Nat) (action : ReconAction)
    (corrected cancelled shrunk : Nat) : Recon :=
  { origin := origin, clock := s.pt.clock, level := p, bookBefore := f.book, difference := (p : Int) - f.book,
    action := action, corrected := corrected, cancelled := cancelled, shrunk := shrunk }

/-- A loss beyond the tolerance (R122). -/
def shrink (f : Fu) (s : State) (origin : ReconOrigin) (p q : Nat) : Act Fu :=
  let r := shrinkLots f.heldPrice f.lots q
  let x : Act Fu :=
    ({ f with
        lots := r.lots, heldPrice := r.heldPrice, shrinkValue := f.shrinkValue + r.value
        recon := reconRecord f s origin p .shrink q 0 r.value },
      r.reports ++ [.sr (.touch .fuelBook), .sr (.touch .shrink)])
  x.andThen fun g => computeHours g s

/-- A surplus beyond the tolerance (R123). -/
def gain (f : Fu) (s : State) (origin : ReconOrigin) (p q : Nat) : Act Fu :=
  let cancelled := min f.overdraw q
  let g := q - cancelled
  let x : Act Fu :=
    ({ f with
        overdraw := f.overdraw - cancelled
        lots := if g = 0 then f.lots else gainLots f.lots f.heldPrice g s.pt.clock s.pt.clockValid
        recon := reconRecord f s origin p .gain q cancelled 0 },
      [.sr (.touch .fuelBook), .sr (.touch .shrink)])
  x.andThen fun h => computeHours h s

/-- A reconciliation against the probe level `p` (R121). -/
def reconcile (f : Fu) (s : State) (origin : ReconOrigin) (p : Nat) : Act Fu :=
  let d : Int := (p : Int) - f.book
  if d.natAbs ≤ s.cfg.tolerance then
    ({ f with recon := reconRecord f s origin p .none 0 0 0 }, [.sr (.touch .shrink)])
  else if d < 0 then shrink f s origin p d.natAbs
  else gain f s origin p d.natAbs

/-- The reconciliation timer expires (R120). -/
def reconTimerEnd (f : Fu) (s : State) : Act Fu :=
  if f.reconTimer.isNone then quiet f
  else
    match s.pcu.level with
    | some p => reconcile { f with reconTimer := none } s .afterVisit p
    | none => quiet { f with reconTimer := none, waitLevel := true }

/-- An LP window expires: a reconciliation that waits for a level runs (R120). -/
def levelWindow (f : Fu) (s : State) : Act Fu :=
  match f.waitLevel, s.pcu.level with
  | true, some p => reconcile { f with waitLevel := false } s .afterVisit p
  | _, _ => quiet f

/-! ### Tool commands (6.7) -/

/-- A visit is in progress. -/
def Fu.visiting (f : Fu) : Bool :=
  match f.visit with
  | some v => v.inProgress
  | none => false

/-- The reconciliation record in an answer (Table 6-4, R167, log 20).  A shrink value added past 32 bits is sent by its
low-order four bytes (the model's choice, log 36). -/
def reconBytes (r : Recon) : List Byte :=
  [match r.origin with
   | .none => 0xFF
   | .afterVisit => Config.reconOriginCode false
   | .tool => Config.reconOriginCode true] ++
  beBytes 4 r.clock ++ beBytes 4 r.level ++ signedBytes r.bookBefore ++ signedBytes r.difference ++
  [Config.reconActionCode (match r.action with | .none => 0 | .shrink => 1 | .gain => 2)] ++
  beBytes 4 r.corrected ++ beBytes 4 r.cancelled ++ beBytes 4 r.shrunk

/-- RECONCILE (R125). -/
def fuReconcile (f : Fu) (s : State) (ask : Ask) : Act Fu :=
  let refused : Act Fu := (f, [.lc (.answer ask .state [])])
  if !s.cfg.tankFitted || f.visiting then refused
  else
    match s.pcu.level with
    | none => refused
    | some p =>
        (reconcile { f with reconTimer := none, waitLevel := false } s .tool p).andThen fun g =>
          (g, [.lc (.answer ask .done (reconBytes g.recon))])

/-- A lot in an answer (Tables 6-1 and 6-5). -/
def lotBytes (l : Lot) : List Byte :=
  beBytes 2 l.number ++ beBytes 2 l.price ++ beBytes 4 l.delivered ++ beBytes 4 l.remaining ++ beBytes 4 l.clock ++
    [flagByte l.clockValid]

/-- Remaining seconds of the reconciliation timer, a free value while it runs (R126, log 18). -/
def reconSeconds (f : Fu) (s : State) : Byte :=
  if f.reconTimer.isSome then BitVec.ofNat 8 (clampTo 0 120 (Config.reconRemaining s.lc.answerSeq)) else 0xFF

/-- The data of a TANK QUERY (Table 6-5, log 20). -/
def tankData (f : Fu) (s : State) : List Byte :=
  BitVec.ofNat 8 f.lots.length :: f.lots.flatMap lotBytes ++ signedBytes f.book ++ beBytes 4 f.overdraw ++
  beBytes 2 f.heldPrice ++ beBytes 8 f.shrinkValue ++ beBytes 2 f.hours ++ [BitVec.ofNat 8 f.threshold.code] ++
  beBytes 8 (burnRate s) ++ [Config.burnRateMark (decide (0 < s.pcu.bf.figure))] ++ optBytes 4 s.pcu.level ++
  beBytes 4 f.unbooked ++ reconBytes f.recon ++ [reconSeconds f s, flagByte f.waitLevel]

/-- TANK QUERY (R126). -/
def fuTankQuery (f : Fu) (s : State) (ask : Ask) : Act Fu :=
  (f, [if s.cfg.tankFitted then .lc (.answer ask .done (tankData f s)) else .lc (.answer ask .state [])])

/-! ### Deliveries, claims, visits (chapter 7) -/

/-- The sender and number tests of the delivery frames (R128). -/
def deliverySender (sender number : Nat) : Bool :=
  decide (28 ≤ sender) && decide (sender ≤ 31) && decide (number ≠ 0)

/-- The lot delivered of a number, 0 when no lot carries it (R139). -/
def Fu.lotDelivered (f : Fu) (number : Nat) : Nat :=
  match f.lots.find? (·.number == number) with
  | some l => l.delivered
  | none => 0

/-- Payload of FILL DONE (Table 9-11). -/
def fillDonePayload (f : Fu) (v : Visit) (c : EndCause) : List Byte :=
  beBytes 2 v.number ++ [BitVec.ofNat 8 c.code] ++ beBytes 4 v.visitDl ++ beBytes 4 v.repaidDl ++
    beBytes 4 (f.lotDelivered v.number)

/-- The end of a visit in progress (R139). -/
def endVisit (f : Fu) (v : Visit) (c : EndCause) : Act Fu :=
  ({ f with visit := some { v with state := .ended c }, flowStall := none, pauseTimer := none,
            reconTimer := some 120000 },
    [.fli (.valve false), .lc (.offer (terminalFrame .fillDone v.terminal (fillDonePayload f v c)))])

/-- The open-delivery record is cleared; a visit in progress for its number ends (R130). -/
def clearDelivery (f : Fu) (d : Delivery) (c : EndCause) : Act Fu :=
  let g := { f with delivery := none, claimRepeat := none }
  match f.visit with
  | some v => if v.inProgress ∧ v.number = d.number then endVisit g v c else quiet g
  | none => quiet g

/-- The conditions of a FILL CLAIM (R131). -/
def claimHolds (f : Fu) (s : State) (d : Delivery) : Bool :=
  s.cfg.tankFitted && !s.lc.duplicate &&
  (decide (f.hours ≤ s.cfg.claimThr) ||
    decide ((40 * s.cfg.tankDl : Int) ≤ ((s.cfg.fillLimitDl : Int) - f.book) * 100)) &&
  !atLimit f s && (decide (f.lots.length < 8) || f.carries d.number) && decide (0 < d.truck)

/-- Payload of a FILL CLAIM (Table 9-4, R132). -/
def claimPayload (f : Fu) (s : State) (d : Delivery) : List Byte :=
  beBytes 2 d.number ++ beBytes 2 f.hours ++
    beBytes 2 (clampTo 0 65535 (((s.cfg.fillLimitDl : Int) - f.book) / 10).toNat) ++
    [BitVec.ofNat 8 (8 - f.lots.length)]

/-- A FILL CLAIM is sent when its conditions hold, and the claim repeat timer started; else it is stopped (R131,
R132). -/
def judgeClaim (f : Fu) (s : State) (d : Delivery) : Act Fu :=
  if claimHolds f s d then
    ({ f with claimRepeat := some 60000 },
      [.lc (.offer (terminalFrame .fillClaim d.terminal (claimPayload f s d)))])
  else quiet { f with claimRepeat := none }

/-- The claim repeat timer expires (R132). -/
def claimRepeatEnd (f : Fu) (s : State) : Act Fu :=
  if f.claimRepeat.isNone then quiet f
  else
    match f.delivery with
    | some d => if d.visited then quiet { f with claimRepeat := none } else judgeClaim f s d
    | none => quiet { f with claimRepeat := none }

/-- DELIVERY OPEN (R128, R129). -/
def deliveryOpen (f : Fu) (s : State) (sender number price truck : Nat) : Act Fu :=
  let fresh : Delivery := ⟨number, price, sender, truck, false, 30000⟩
  if !deliverySender sender number || !s.cfg.tankFitted then quiet f
  else
    match f.delivery with
    | some d =>
        if d.number = number then
          quiet { f with delivery := some { d with price := price, truck := truck, terminal := sender, age := 30000 } }
        else
          (clearDelivery f d .recordReplaced).andThen fun g => judgeClaim { g with delivery := some fresh } s fresh
    | none => judgeClaim { f with delivery := some fresh } s fresh

/-- DELIVERY CLOSE (R128, R130). -/
def deliveryClose (f : Fu) (s : State) (sender number : Nat) : Act Fu :=
  if !deliverySender sender number || !s.cfg.tankFitted then quiet f
  else
    match f.delivery with
    | some d => if d.number = number then clearDelivery f d .deliveryClosed else quiet f
    | none => quiet f

/-- The record's age timer expires (R130). -/
def recordExpiry (f : Fu) : Act Fu :=
  match f.delivery with
  | some d => clearDelivery f d .recordExpired
  | none => quiet f

/-- Replies to a VISIT (Table 9-3). -/
inductive VisitReply where
  | accepted | notOpen | full | noTank | busy
deriving DecidableEq, Repr

def VisitReply.code : VisitReply → Nat
  | .accepted => 0 | .notOpen => 1 | .full => 2 | .noTank => 3 | .busy => 4

/-- The judgement of Table 7-3: the reply, and whether R134 applies. -/
def judgeVisit (f : Fu) (s : State) (number : Nat) : VisitReply × Bool :=
  if !s.cfg.tankFitted then (.noTank, false)
  else if f.visiting then
    (if (f.visit.map (·.number)) = some number then (.accepted, false) else (.busy, false))
  else if (f.delivery.map (·.number)) ≠ some number then (.notOpen, false)
  else if 8 ≤ f.lots.length ∧ !f.carries number then (.full, false)
  else (.accepted, true)

/-- Payload of a VISIT REPLY (Table 9-10). -/
def replyFrame (sender number : Nat) (r : VisitReply) : Report :=
  .lc (.offer (terminalFrame .visitReply sender (beBytes 2 number ++ [BitVec.ofNat 8 r.code])))

/-- A visit is accepted (R134). -/
def acceptVisit (f : Fu) (s : State) (sender number : Nat) (d : Delivery) : Act Fu :=
  let v : Visit := { state := .flowing, number := number, price := d.price, terminal := sender, visitDl := 0,
                     repaidDl := 0, repaying := false }
  let g := { f with delivery := some { d with visited := true }, claimRepeat := none, reconTimer := none,
                    waitLevel := false }
  match pauseTest g s with
  | some c => enterPaused g v c
  | none => enterFlowing g v

/-- VISIT (R128, R133). -/
def visitFrame (f : Fu) (s : State) (sender number : Nat) : Act Fu :=
  if !deliverySender sender number then quiet f
  else
    let j := judgeVisit f s number
    let x := match j.2, f.delivery with
      | true, some d => acceptVisit f s sender number d
      | _, _ => quiet f
    (x.1, replyFrame sender number j.1 :: x.2)

/-- VISIT END (R128, R139). -/
def visitEndFrame (f : Fu) (sender number : Nat) : Act Fu :=
  if !deliverySender sender number then quiet f
  else
    match f.visit with
    | some v => if v.inProgress ∧ v.number = number then endVisit f v .terminalEnd else quiet f
    | none => quiet f

/-- FILL KEY changes (R136, R137). -/
def keyChange (f : Fu) (s : State) (on : Bool) : Act Fu :=
  match f.visit with
  | none => quiet f
  | some v =>
      match v.state, on with
      | .flowing, false => enterPaused f v .keyOff
      | .paused .keyOff, true => causeCleared f s v
      | .paused .highLevel, false | .paused .fillLimit, false | .paused .flowStall, false =>
          quiet { f with visit := some { v with state := .paused .keyOff } }
      | _, _ => quiet f

/-- HIGH LEVEL changes (R136, R137). -/
def highChange (f : Fu) (s : State) (active : Bool) : Act Fu :=
  match f.visit with
  | none => quiet f
  | some v =>
      match v.state, active with
      | .flowing, true => enterPaused f v .highLevel
      | .paused .highLevel, false => causeCleared f s v
      | _, _ => quiet f

/-- The flow stall timer expires (R136, R138). -/
def flowStallEnd (f : Fu) : Act Fu :=
  match f.visit, f.flowStall with
  | some v, some _ => if v.state = .flowing then enterPaused f v .flowStall else quiet f
  | _, _ => quiet f

/-- The pause timer expires (R137, R139). -/
def pauseTimerEnd (f : Fu) : Act Fu :=
  match f.visit, f.pauseTimer with
  | some v, some _ => if v.inProgress then endVisit f v .pauseLimit else quiet f
  | _, _ => quiet f

/-- The FU's act on what reaches it; a cell without a tank has no FU state in use (6, introduction).  At the end of
start-up a threshold state other than NORMAL is reported as a change to it (R119, R63). -/
def fuHandle (m : FuMsg) (s : State) : Act Fu :=
  let f := s.fu
  match m with
  | .bfTotal t => ({ f with heldBf := t }, [.fu (.burn (unitsBetween f.heldBf t))])
  | .ffTotal t => ({ f with heldFf := t }, [.fu (.fill (unitsBetween f.heldFf t))])
  | .burn n => fuBurn f s n
  | .fill n => fuFill f s n
  | .bfWindow => computeHours f s
  | .lpWindow => levelWindow f s
  | .fillKey b => keyChange f s b
  | .highLevel b => highChange f s b
  | .open' sender number price truck => deliveryOpen f s sender number price truck
  | .close sender number => deliveryClose f s sender number
  | .visit sender number => visitFrame f s sender number
  | .visitEnd sender number => visitEndFrame f sender number
  | .recordExpiry => recordExpiry f
  | .claimRepeat => claimRepeatEnd f s
  | .flowStall => flowStallEnd f
  | .pauseTimer => pauseTimerEnd f
  | .reconTimer => reconTimerEnd f s
  | .endOfStart => (f, thresholdReports .normal f.threshold)
  | .reconcile ask => fuReconcile f s ask
  | .tankQuery ask => fuTankQuery f s ask

end Sys2Proof.Machine
end

