-- ==== Sys2Proof/Machine/Line.lean ====
section
/-! DEFINITION. The Line Controller (chapter 9, R162 to R175): transmit queue, access, collisions, reception, acceptance and dispatch, tool commands, answers, DUPLICATE. -/

namespace Sys2Proof.Machine

/-! ### Access to the line (R169) -/

/-- Base access wait of a kind in character times (Table 9-2). -/
def baseWait (k : Kind) : Nat := if k.urgent then 3 else 6

/-- Access wait of a kind at a station (R169). -/
def accessWait (k : Kind) (station : Nat) : Nat := baseWait k + station % 8

/-- The receive assembly between frames. -/
def Rx.between : Rx := ⟨false, false, [], false, false, false⟩

/-- The receive assembly in a frame just begun; `own` when the own transmitter drives the line (R163, R165). -/
def Rx.begun (own : Bool) : Rx := ⟨false, true, [], false, own, false⟩

/-- The head is waiting for the line: nothing is under transmission, no backoff runs, no other member's frame goes on. -/
def Lc.mayWait (l : Lc) : Bool :=
  l.enabled && !l.sending && l.backoff.isNone && (!l.rx.inFrame || l.rx.own)

/-- The access wait of the head as it stands (R169). -/
def kick (l : Lc) (station : Nat) : Lc :=
  { l with access :=
      match l.queue with
      | f :: _ => if l.mayWait then some (accessWait f.kind station) else none
      | [] => none }

/-! ### The transmit queue (R168) -/

/-- A waiting STATE replaced in its place; none if there is none. -/
def replaceState (f : TxFrame) : List TxFrame → Option (List TxFrame)
  | [] => none
  | x :: l => if x.kind = .state then some (f :: l) else (replaceState f l).map (x :: ·)

/-- The queue with a STATE put in the place of the waiting one; a head under transmission is not waiting. -/
def replaceWaiting (f : TxFrame) (sending : Bool) (q : List TxFrame) : Option (List TxFrame) :=
  match sending, q with
  | true, x :: l => (replaceState f l).map (x :: ·)
  | _, q => replaceState f q

/-- A frame is offered to the queue, where it has no attempt behind it; the second component tells whether it was taken
(R37, R168). -/
def offerFrame (l : Lc) (station : Nat) (g : TxFrame) : Lc × Bool :=
  let f : TxFrame := { g with attempts := 0 }
  if !l.enabled then (l, false)
  else if l.duplicate && f.kind != .state then (l, false)
  else
    match if f.kind = .state then replaceWaiting f l.sending l.queue else none with
    | some q => (kick { l with queue := q } station, true)
    | none =>
        if l.queue.length < 8 then (kick { l with queue := l.queue ++ [f] } station, true)
        else (l, false)

/-! ### Characters (R162) -/

/-- The odd parity bit of a character: with it an odd number of the nine bits is 1. -/
def oddParity (c : Byte) : Bool := [0, 1, 2, 3, 4, 5, 6, 7].foldl (fun p i => p != c.getLsbD i) true

/-- The bits a character is sent as: the start bit, the data bits least significant first, the parity bit, two stop bits;
`false` is the start level, `true` the stop level and a 1 (log 61). -/
def sentBits (c : Byte) : List Bool :=
  [false, c.getLsbD 0, c.getLsbD 1, c.getLsbD 2, c.getLsbD 3, c.getLsbD 4, c.getLsbD 5, c.getLsbD 6, c.getLsbD 7,
   oddParity c, true, true]

/-- The character of eight data bits, the least significant first. -/
def byteOfBits (d : List Bool) : Byte := BitVec.ofNat 8 (d.foldr (fun b n => 2 * n + b.toNat) 0)

/-- A character received, and whether it is bad: by a parity error, or by a framing error, its first stop bit at the
start level. -/
def charRead (d : List Bool) (parity stop : Bool) : Byte × Bool :=
  (byteOfBits d, parity != oddParity (byteOfBits d) || !stop)

/-- The characters in a row of bits.  One stop bit is required; from its end on the next start bit is looked for, so the
level of a second one does not matter. -/
def receiveBits : List Bool → List (Byte × Bool)
  | false :: d₀ :: d₁ :: d₂ :: d₃ :: d₄ :: d₅ :: d₆ :: d₇ :: parity :: stop :: rest =>
      charRead [d₀, d₁, d₂, d₃, d₄, d₅, d₆, d₇] parity stop :: receiveBits rest
  | _ :: rest => receiveBits rest
  | [] => []

/-- The characters received in a row of bits with the line idle behind it. -/
def receiveChars (bits : List Bool) : List (Byte × Bool) := receiveBits (bits ++ List.replicate 10 true)

/-- A character sent is read back with another value or as a bad one (R169). -/
def mismatched (c : Byte) (readback : List Bool) : Bool := (receiveChars readback).head? != some (c, false)

/-! ### The characters sent (Table 9-1, R164) -/

/-- The header and the payload of a frame as a station sends them. -/
def TxFrame.body (station : Nat) (f : TxFrame) : List Byte :=
  [0xC3, BitVec.ofNat 8 station, BitVec.ofNat 8 f.group, BitVec.ofNat 8 f.dest, BitVec.ofNat 8 f.kind.code,
   BitVec.ofNat 8 f.payload.length] ++ f.payload

/-- The characters a frame is sent as: header, payload, and their check, high byte first. -/
def TxFrame.characters (station : Nat) (f : TxFrame) : List Byte :=
  f.body station ++ beBytes 2 (crc (f.body station)).toNat

/-- The characters the station is sending: those of the head while it is under transmission (R169). -/
def State.sentCharacters (s : State) : List Byte :=
  match s.lc.sending, s.lc.queue with
  | true, f :: _ => f.characters s.cfg.station
  | _, _ => []

/-- The bits the station drives the line with for them (R162). -/
def State.drivenBits (s : State) : List Bool := s.sentCharacters.flatMap sentBits

/-- The character at a place of the frame under transmission is read back with a mismatch (R169). -/
def State.mismatch (s : State) (place : Nat) (readback : List Bool) : Bool :=
  match s.sentCharacters[place]? with
  | some c => mismatched c readback
  | none => false

/-! ### Answers (R172, R173) -/

/-- Data bytes of one ANSWER part. -/
def partSize : Nat := 43

/-- The number of parts of an answer: one for no data. -/
def partCount (data : List Byte) : Nat := if data = [] then 1 else (data.length + (partSize - 1)) / partSize

/-- Part `i` of an answer as a frame (Table 9-13). -/
def answerFrame (a : Answer) (i : Nat) : TxFrame :=
  { terminalFrame .answer a.ask.sender
      ([a.ask.subKind, a.ask.tag, BitVec.ofNat 8 a.result.code, BitVec.ofNat 8 i,
        BitVec.ofNat 8 (partCount a.data)] ++ (a.data.drop (i * partSize)).take partSize) with
    answerOf := some a.serial }

/-- The next part of the answer held is offered; a refusal ends the answer, and so does its last part. -/
def offerPart (l : Lc) (station : Nat) (a : Answer) : Lc × Bool :=
  if a.next < partCount a.data then
    let r := offerFrame l station (answerFrame a a.next)
    if r.2 then ({ r.1 with answer := some { a with next := a.next + 1 } }, true)
    else ({ r.1 with answer := none }, false)
  else ({ l with answer := none }, false)

/-- The answer buffer filled for a command, replacing what it holds, and part 0 offered; an answer that is not DONE has
no data. -/
def giveAnswer (l : Lc) (station : Nat) (ask : Ask) (r : Result) (data : List Byte) : Lc × Bool :=
  offerPart { l with answerSeq := l.answerSeq + 1 } station
    { serial := l.answerSeq, ask := ask, result := r, data := if r = .done then data else [], next := 0 }

/-- A frame has left the queue: the answer whose part it was goes on, a restart that waited for it is ready. -/
def frameLeft (l : Lc) (station : Nat) (f : TxFrame) : Lc :=
  match f.answerOf with
  | none => l
  | some n =>
      let l₁ := if l.restart = .waiting n then { l with restart := .ready } else l
      match l₁.answer with
      | some a => if a.serial = n then (offerPart l₁ station a).1 else l₁
      | none => l₁

/-! ### Sending (R169, R170) -/

/-- The access wait completes: an attempt begins. -/
def accessDone (l : Lc) : Lc :=
  match l.access, l.queue with
  | some _, f :: rest =>
      if l.sending then l
      else { l with access := none, sending := true, rx := Rx.begun true,
                    queue := { f with attempts := f.attempts + 1 } :: rest }
  | _, _ => l

/-- The head has been sent; the receiver stays in the readback frame until its idle gap (R165). -/
def frameSent (l : Lc) (station : Nat) : Lc :=
  match l.sending, l.queue with
  | true, f :: rest =>
      kick (frameLeft { l with sending := false, rx := { l.rx with whole := true }, queue := rest } station f) station
  | _, _ => l

/-- The backoff drawn, in character times: 2 × r, r from 1 to 16 (R170). -/
def backoffOf (l : Lc) : Nat := 2 * (1 + Config.prngDraw l.draws l.prng % 16)

/-- A collision (R170). -/
def collide (l : Lc) (station : Nat) : Lc :=
  match l.sending, l.queue with
  | true, f :: rest =>
      let l₁ := { l with sending := false }
      if 6 ≤ f.attempts then kick (frameLeft { l₁ with queue := rest } station f) station
      else if f.kind = .state ∧ rest.any (·.kind == .state) then kick { l₁ with queue := rest } station
      else kick { l₁ with backoff := some (backoffOf l), prng := Config.prngNext l.draws l.prng,
                          draws := l.draws + 1 } station
  | _, _ => l

/-- The backoff ends (R170). -/
def backoffEnd (l : Lc) (station : Nat) : Lc :=
  if l.backoff.isNone then l else kick { l with backoff := none } station

/-- A start bit after an idle gap: what frame there was has ended at that gap, a frame begins, and the access wait ends
without result (R163, R169, R174). -/
def startBit (l : Lc) (station : Nat) : Lc :=
  if l.enabled then kick { l with rx := Rx.begun l.sending } station else l

/-! ### Reception (R163 to R166) -/

/-- DUPLICATE is set: every frame but STATE leaves the queue, the answer buffer is emptied, a pending restart is ready
(R36, R37, R172, R173).  A backoff ends with the head it ran for, and the new head begins its access wait (the model's
choice, log 53). -/
def setDuplicate (l : Lc) (station : Nat) : Act Lc :=
  if l.duplicate then quiet l
  else
    let q := l.queue.filter (·.kind == .state)
    (kick { l with
        duplicate := true, queue := q, answer := none
        backoff := if q.head? = l.queue.head? then l.backoff else none
        restart := match l.restart with
          | .waiting _ => .ready
          | r => r } station, [.du .duplicate])

/-- The header group and sender tests of R166 for the station kinds. -/
def senderTest (h : Header) (k : Kind) : Bool :=
  !k.stationKind || (h.group != 0 && decide (1 ≤ h.sender.toNat) && decide (h.sender.toNat ≤ 27))

/-- The payload length test of R166. -/
def lengthTest (k : Kind) (payload : List Byte) : Bool :=
  match k.fixedLength, k with
  | some n, _ => payload.length == n
  | none, _ => true

/-- A permitted tool command, RESTART apart, goes to its owner; RESTART is answered and pending (R171, R173). -/
def takeTool (l : Lc) (station : Nat) (ask : Ask) (k : SubKind) (params : List Byte) : Act Lc :=
  match k with
  | .restart =>
      let r := giveAnswer l station ask .done []
      quiet { r.1 with restart := if r.2 then .waiting l.answerSeq else .ready }
  | _ => (l, k.report ask params)

/-- A TOOL COMMAND (R171). -/
def toolCommand (l : Lc) (s : State) (h : Header) (payload : List Byte) : Act Lc :=
  match payload with
  | sub :: tag :: params =>
      if h.dest.toNat ≠ s.cfg.station ∨ l.restart ≠ .none then quiet l
      else
        let ask : Ask := ⟨h.sender.toNat, sub, tag⟩
        let refuse (r : Result) : Act Lc := quiet (giveAnswer l s.cfg.station ask r []).1
        if h.sender.toNat < 28 ∨ 31 < h.sender.toNat then refuse .notPermitted
        else
          match SubKind.ofByte? sub with
          | none => refuse .unknown
          | some k =>
              if params.length ≠ k.paramLength then refuse .range
              else if k.altering && s.fli.inputs.lock then refuse .locked
              else takeTool l s.cfg.station ask k params
  | _ => quiet l

/-- An accepted frame is dispatched or discarded (R166). -/
def dispatchFrame (l : Lc) (s : State) (h : Header) (kind : Byte) (payload : List Byte) : Act Lc :=
  match Kind.ofCode? kind.toNat with
  | none => quiet l
  | some k =>
      if k.notTaken || !senderTest h k || !lengthTest k payload then quiet l
      else if k = .toolCommand then toolCommand l s h payload
      else (l, frameReport h k payload)

/-- The group and to tests (R165). -/
def addressed (s : State) (h : Header) : Bool :=
  (h.group == 0 || h.group.toNat == s.cfg.group) && (h.dest == 0 || h.dest.toNat == s.cfg.station)

/-- A frame from `sender` is taken as a readback frame: the own transmitter drove the line during it.  A frame with
another number behind an own frame sent whole is no part of that (R165, log 15). -/
def Rx.readsBack (r : Rx) (sender station : Nat) : Bool := r.own && (!r.whole || sender == station)

/-- A frame that has passed R163, and so began after an idle gap (R174, log 14), ends; a readback frame is discarded
without tests (R165). -/
def frameEnd (l : Lc) (s : State) (h : Header) (kind : Byte) (payload : List Byte) : Act Lc :=
  if !l.enabled then quiet l
  else
    let l₁ := kick { l with rx := Rx.between } s.cfg.station
    if l.rx.readsBack h.sender.toNat s.cfg.station then quiet (if l.sending then l else l₁)
    else if !addressed s h then quiet l₁
    else if h.sender.toNat = s.cfg.station then setDuplicate l₁ s.cfg.station
    else dispatchFrame l₁ s h kind payload

/-- The receive assembly when the characters of a frame have come in: 56 are kept; a bad one marks the frame bad (R162),
and so does one more (R163). -/
def Rx.filled (r : Rx) (chars : List (Byte × Bool)) : Rx :=
  { r with chars := (chars.map (·.1)).take 56, bad := chars.any (·.2) || decide (56 < chars.length) }

/-- The tests of R163 on a frame's characters: its header, kind and payload if all hold.  Characters that end at the
first idle gap after a start belong to a frame whose beginning was not seen, and are not judged (R174). -/
def judgeChars (r : Rx) : Option (Header × Byte × List Byte) :=
  let n := (byteAt r.chars 5).toNat
  if r.bad || r.waitGap then none
  else if r.chars.length < 8 then none
  else if byteAt r.chars 0 ≠ 0xC3 then none
  else if 48 < n then none
  else if r.chars.length ≠ 8 + n then none
  else if (crc (r.chars.take (6 + n))).toNat ≠ fieldAt r.chars (6 + n) 2 then none
  else some (⟨byteAt r.chars 1, byteAt r.chars 2, byteAt r.chars 3⟩, byteAt r.chars 4, (r.chars.drop 6).take n)

/-- A frame ends, given by its bits (R162 to R166). -/
def rawEnd (l : Lc) (s : State) (bits : List Bool) : Act Lc :=
  if !l.enabled then quiet l
  else
    match judgeChars (l.rx.filled (receiveChars bits)) with
    | some (h, kind, payload) => frameEnd l s h kind payload
    | none => quiet (if l.sending then l else kick { l with rx := Rx.between } s.cfg.station)

/-- The LC's act on what reaches it. -/
def lcHandle (m : LcMsg) (s : State) : Act Lc :=
  let l := s.lc
  let n := s.cfg.station
  match m with
  | .offer f => quiet (offerFrame l n f).1
  | .answer ask r data => quiet (giveAnswer l n ask r data).1
  | .frame h kind payload => frameEnd l s h kind payload
  | .raw bits => rawEnd l s bits
  | .startBit => quiet (startBit l n)
  | .accessDone => quiet (accessDone l)
  | .sent => quiet (frameSent l n)
  | .collision place readback => quiet (if s.mismatch place readback then collide l n else l)
  | .backoffEnd => quiet (backoffEnd l n)

end Sys2Proof.Machine
end

