-- ==== Sys2Proof/Machine/Flags.lean ====
section
/-! DEFINITION. Flags and output lines read off the state: the alert conditions, the alert flags of a STATE frame, the command outputs, SHARE, VALVE and AUX. -/

namespace Sys2Proof.Machine

/-- The alert flags a STATE frame carries (Table 9-6, offset 28): bit 0 DUPLICATE, 1 TABLE FULL, 2 RETAINED DAMAGED,
3 CONFIG CLAMPED. -/
def State.alertFlags (s : State) : BitVec 4 :=
  (if s.lc.duplicate then 1#4 else 0#4) ||| (if s.pt.tableFull then 2#4 else 0#4) |||
  (if s.retainedDamaged then 4#4 else 0#4) ||| (if s.configClamped then 8#4 else 0#4)

/-- Some fitted feeder is FAILED: the feeder-failure condition (R13). -/
def State.feederFailure (s : State) : Bool :=
  FeederId.every.any fun n => s.cfg.fitted.get n && (s.sc.recs.get n).failed.isSome

/-- The ALERT output: active while an alert condition of Table 1-5 holds (R18). -/
def State.alertOutput (s : State) : Bool :=
  s.phase == .unusable || s.configClamped || s.retainedDamaged || s.lc.duplicate || s.pt.tableFull ||
  s.cc.noIncoming || s.cc.partnerLost || s.fli.breakerFail || s.feederFailure

/-- A command output is active while its pulse runs (R10): START, CLOSE, FONn for `on`; STOP, TRIP, FOFFn for `off`. -/
def State.commandOutput (s : State) (d : Device) (c : Sense) : Bool := (s.fli.dev d).pulse == some c

/-- The SHARE output's duty in 1,250ths: the share setpoint; 0 while no set is fitted (R14, log 39). -/
def State.shareOutput (s : State) : Nat := if s.cfg.setFitted then s.du.share else 0

/-- The status of a feeder as Table 5-1 names it (R88). -/
inductive FeederStatus where
  | normal | shed | failed
deriving DecidableEq, Repr

/-- FAILED from a failed confirm until the failure ends; else SHED on the shed list, NORMAL off it (R88). -/
def Sc.status (c : Sc) (n : FeederId) : FeederStatus :=
  if (c.recs.get n).failed.isSome then .failed
  else if c.shedList.any (·.feeder == n) then .shed
  else .normal

end Sys2Proof.Machine
end

