-- ==== Sys2Proof/Machine/PeerView.lean ====
section
/-! DEFINITION. The Peer Table and the site clock (chapter 2, R20 to R35): the STATE frame, the entries, the group figures, the clock. -/

namespace Sys2Proof.Machine

/-! ### The own STATE frame -/

/-- Run hours sent: whole hours of RUNNING since the end of start-up (R20). -/
def runHours (seconds : Nat) : Nat := clampTo 0 65535 (seconds / 3600)

/-- The payload of the own STATE frame at this moment (Tables 2-1 and 9-6, R20). -/
def statePayload (s : State) : List Byte :=
  let g := s.cfg
  let flags := (if g.setFitted then 1 else 0) + (if g.tankFitted then 2 else 0) + (if g.closedCap then 4 else 0)
  let fit (n : Nat) : Nat := if g.setFitted then n else 0
  [BitVec.ofNat 8 g.station, BitVec.ofNat 8 g.group, BitVec.ofNat 8 flags] ++ beBytes 2 g.heartbeat ++
  [BitVec.ofNat 8 (fit s.du.state.code), flagByte (g.setFitted && s.du.breaker)] ++
  beBytes 2 (fit g.rating) ++ beBytes 2 (fit s.outputKw) ++ beBytes 2 (fit s.du.share) ++
  beBytes 2 (if g.tankFitted then s.fu.hours else 9999) ++
  [BitVec.ofNat 8 (if g.tankFitted then s.fu.threshold.code else 0)] ++
  beBytes 2 (fit (runHours s.pt.runSeconds)) ++
  [flagByte s.fli.inputs.showSwitch, BitVec.ofNat 8 s.cc.state.code, BitVec.ofNat 8 s.cc.partner,
   BitVec.ofNat 8 (classCode s.sc.summary.cls), BitVec.ofNat 8 s.sc.summary.count] ++
  beBytes 4 s.pt.clock ++ [flagByte s.pt.clockValid, s.alertFlags.setWidth 8] ++ List.replicate 15 0

/-- Builds a STATE frame and hands it to the LC; the heartbeat timer restarts (R21, R22). -/
def sendState (p : Pt) (s : State) : Act Pt :=
  ({ p with heartbeat := some s.cfg.heartbeat }, [.lc (.offer (groupFrame s.cfg .state 0 (statePayload s)))])

/-! ### Group figures (2.3) -/

/-- A set as the figures count it: on bus, set state, rating, output. -/
structure SetView where
  onBus    : Bool
  releasing : Bool
  rating   : Nat
  output   : Nat
deriving DecidableEq, Repr

/-- The own set, from its owners' values (R27). -/
def ownView (s : State) : SetView :=
  { onBus := s.du.breaker, releasing := s.du.breaker && s.du.state == .rampdown, rating := s.cfg.rating,
    output := s.outputKw }

/-- A peer's set, from its entry (R27). -/
def PeerEntry.view (e : PeerEntry) : SetView :=
  { onBus := e.fields.onBus, releasing := e.fields.onBus && e.fields.setState == .rampdown,
    rating := e.fields.rating, output := e.fields.output }

/-- The group figures over a peer table and the own station (Table 2-4). -/
def figuresOf (s : State) (entries : List PeerEntry) : Figures :=
  let sets := ownView s :: entries.map PeerEntry.view
  let onBus := sets.filter (·.onBus)
  let carrying := onBus.filter fun v => !v.releasing
  { capacity := (carrying.map (·.rating)).sum
    load := (onBus.map (·.output)).sum
    releasing := ((onBus.filter (·.releasing)).map (·.output)).sum
    carrying := carrying.length
    peersOnBus := (entries.filter fun e => e.fields.onBus).length
    showActive := s.fli.inputs.showSwitch || entries.any fun e => e.fields.showInput
    handoverInGroup := s.cc.state != .idle || entries.any fun e => e.fields.handover != .idle
    lowestShed := (entries.map fun e => e.fields.shedClass).foldl (lowerClass s.cfg.order) none }

/-- The reports of the figures whose values have changed (R28). -/
def figureChanges (a b : Figures) : List Report :=
  let power := a.capacity != b.capacity || a.load != b.load || a.releasing != b.releasing
  let toDu := power || a.carrying != b.carrying || a.peersOnBus != b.peersOnBus ||
    a.handoverInGroup != b.handoverInGroup
  let toScPower := a.capacity != b.capacity || a.load != b.load
  let toScClass := a.lowestShed != b.lowestShed
  (if toDu then [.du (.figures power)] else []) ++
  (if a.showActive != b.showActive then [.cc (.showActive b.showActive)] else []) ++
  (if toScPower || toScClass then [.sc (.figures toScPower toScClass)] else [])

/-- Computes the group figures again and hands on the changed ones (R28). -/
def recompute (p : Pt) (s : State) : Act Pt :=
  let figs := figuresOf s p.entries
  ({ p with figs := figs }, figureChanges p.figs figs)

/-! ### The site clock (2.4) -/

/-- Sets the clock to a value it takes by becoming valid, by a step or by a jump: the second timer restarts, the floor
is written when the clock becomes valid or its minute changes, and the BU is told (R30, R34, R35). -/
def moveClock (p : Pt) (v : Nat) (change : ClockChange) : Act Pt :=
  let write := !p.clockValid || p.clock / 60 != v / 60
  ({ p with clock := v, clockValid := true, second := some 1000, floor := if write then v else p.floor },
    (if write then [.sr (.touch .clockFloor)] else []) ++ [.bu (.clock change)])

/-- The clock field of a taken STATE frame: becoming valid at or above the floor, adoption when 2 s or more ahead
(R31, R32). -/
def hearClock (p : Pt) (valid : Bool) (v : Nat) : Act Pt :=
  if !valid then quiet p
  else if p.clockValid then
    (if p.clock + 2 ≤ v then moveClock p v (.jump p.clock v) else quiet p)
  else if p.floor ≤ v then moveClock p v (.becomingValid v)
  else quiet p

/-- The second timer completes a second: a valid clock steps by 1, and stops at its largest value (R30). -/
def clockSecond (p : Pt) : Act Pt :=
  if p.clockValid && p.second.isSome then
    (if p.clock < max32 then moveClock p (p.clock + 1) (.step (p.clock + 1)) else quiet { p with second := none })
  else quiet p

/-- TIME SET (R33). -/
def timeSetClock (p : Pt) (ask : Ask) (v : Nat) : Act Pt :=
  if p.clockValid then
    (if v < p.clock then (p, [.lc (.answer ask .range [])])
     else if v = p.clock then ({ p with second := some 1000 }, [.lc (.answer ask .done [])])
     else (moveClock p v (.jump p.clock v)).andThen fun q => (q, [.lc (.answer ask .done [])]))
  else if v < p.floor then (p, [.lc (.answer ask .range [])])
  else (moveClock p v (.becomingValid v)).andThen fun q => (q, [.lc (.answer ask .done [])])

/-! ### The peer table (2.2) -/

/-- An entry replaced, or added behind the others (R23; the order has no meaning, log 37). -/
def putEntry (l : List PeerEntry) (e : PeerEntry) : List PeerEntry :=
  if l.any (·.station == e.station) then l.map fun x => if x.station == e.station then e else x
  else l ++ [e]

/-- A STATE frame that passes R23's tests is taken into the table: the entry, the clock, the figures, and the checks of
the DU and CC that read the table. -/
def takeState (p : Pt) (s : State) (station : Nat) (f : PeerFields) : Act Pt :=
  let q := { p with entries := putEntry p.entries ⟨station, f, ageOf f.heartbeat⟩ }
  (hearClock q f.clockValid f.clock).andThen fun r =>
    (recompute r s).andThen fun t => (t, [.du .test, .cc (.partnerState station)])

/-- A received STATE frame (R23, R26). -/
def hearState (p : Pt) (s : State) (h : Header) (payload : List Byte) : Act Pt :=
  let station := h.sender.toNat
  if h.group = 0 ∨ payload.length ≠ 44 then quiet p
  else if station < 1 ∨ 27 < station then quiet p
  else if fieldAt payload 0 1 ≠ station ∨ fieldAt payload 1 1 ≠ h.group.toNat then quiet p
  else if (p.find station).isNone && decide (15 ≤ p.entries.length) then quiet { p with tableFull := true }
  else takeState p s station (PeerFields.ofPayload payload)

/-- A peer's age timer expires: its entry is removed, the figures computed again, and the peer told lost (R25, R26). -/
def loseEntry (p : Pt) (s : State) (station : Nat) : Act Pt :=
  if (p.find station).isNone then quiet p
  else
    let left := p.entries.filter fun e => e.station != station
    let q := { p with entries := left, tableFull := p.tableFull && decide (15 ≤ left.length) }
    (recompute q s).andThen fun t => (t, [.du (.peerLost station), .cc (.peerLost station)])

/-- The PT's act on what reaches it.  Before step 8 of a start it hands the LC no STATE (R21). -/
def ptHandle (m : PtMsg) (s : State) : Act Pt :=
  match m with
  | .reportable => if s.pastStep 8 then sendState s.pt s else quiet s.pt
  | .ownChanged => recompute s.pt s
  | .heartbeat => if s.pt.heartbeat.isSome then sendState s.pt s else quiet s.pt
  | .showChanged => (sendState s.pt s).andThen fun p => recompute p s
  | .stateFrame h payload => hearState s.pt s h payload
  | .age station => loseEntry s.pt s station
  | .second => clockSecond s.pt
  | .runSecond =>
      if s.isRunning && s.fli.inputs.running then quiet { s.pt with runSeconds := s.pt.runSeconds + 1 }
      else quiet s.pt
  | .timeSet ask v => timeSetClock s.pt ask v
  | .intervalClosed v => ({ s.pt with floor := v }, [.sr (.touch .clockFloor)])

end Sys2Proof.Machine
end

