-- ==== Sys2Proof/Machine/PulseChannels.lean ====
section
/-! DEFINITION. The Pulse Channel Unit (chapter 1, R1 to R8): pulses, counts, windows and window figures. -/

namespace Sys2Proof.Machine

/-- The active period an active stretch belongs to, as wide as it is after the stretch: a new one behind a gap of the
minimum width; behind a narrower gap the one before goes on, or none if that has made its pulse already (R1).  The gaps
inside a period add nothing to its width (the model's choice, log 13). -/
def activePeriod (g : ChanCfg) (before : Option Nat) (gap active : Nat) : Option Nat :=
  if g.minWidth ≤ gap then some active else before.map (· + active)

/-- With the stretch the active period reaches the minimum width: a pulse is accepted (R1). -/
def pulseWide (g : ChanCfg) (before : Option Nat) (gap active : Nat) : Bool :=
  match activePeriod g before gap active with
  | some w => decide (g.minWidth ≤ w)
  | none => false

/-- One accepted pulse at a channel other than LP: the prescaler, and the count it may complete (R2, R3).  `windowed`
is false during start-up, when no window runs (R8).  The second component tells whether a count completed. -/
def Chan.accept (x : Chan) (g : ChanCfg) (windowed : Bool) : Chan × Bool :=
  if x.remainder + 1 < g.prescale then ({ x with remainder := x.remainder + 1 }, false)
  else
    ({ x with remainder := 0, total := x.total + BitVec.ofNat 32 g.weight,
              count := if windowed then x.count + 1 else x.count }, true)

/-- One accepted pulse at LP: a count, the remainder and the running total staying 0 (R2, R3). -/
def Chan.acceptProbe (x : Chan) (windowed : Bool) : Chan :=
  { x with count := if windowed then x.count + 1 else x.count }

/-- Hands a running total to the consumers Table 1-1 names (R3). -/
def totalReports (c : Channel) (t : BitVec 32) : List Report :=
  match c with
  | .se => [.du (.seTotal t), .bu (.seTotal t)]
  | .bf => [.fu (.bfTotal t)]
  | .ff => [.fu (.ffTotal t)]
  | .lp => []
  | .f n => [.bu (.fTotal n t)]

/-- Power in kW of a latched count (R5). -/
def powerFigure (g : ChanCfg) (latched : Nat) : Nat :=
  clampTo 0 65535 (latched * g.weight * 3600 / (g.window * 1000))

/-- Burn rate in dL/h of a latched count (R6). -/
def burnFigure (g : ChanCfg) (latched : Nat) : Nat := latched * g.weight * 3600 / g.window

/-- Probe level P in dL of a latched count `n`: the probe map `fE`, `fF`, tank capacity `k` dL, window `w` s (R7). -/
def probeLevel (fE fF k w n : Nat) : Nat :=
  if fE < fF then
    (if fE * w < n then clampTo 0 k ((n - fE * w) * k / ((fF - fE) * w)) else 0)
  else
    (if n < fE * w then clampTo 0 k ((fE * w - n) * k / ((fE - fF) * w)) else 0)

/-- The window figure a channel derives at an expiry (R5, R6); FF and LP derive none of this kind. -/
def windowFigure (g : ChanCfg) (c : Channel) (latched : Nat) : Nat :=
  match c with
  | .se => powerFigure g latched
  | .bf => burnFigure g latched
  | .ff | .lp => 0
  | .f _ => powerFigure g latched

/-- Hands a window figure to the unit Table 1-1 names.  The SE figure changes the group figures before the DU acts on
it (R28, R45). -/
def figureReports (c : Channel) : List Report :=
  match c with
  | .se => [.pt .ownChanged, .du .seWindow]
  | .bf => [.fu .bfWindow]
  | .ff => []
  | .lp => [.fu .lpWindow]
  | .f n => [.sc (.fWindow n)]

/-- A window expiry of a channel in use (R4). -/
def pcuWindow (c : Channel) (s : State) : Act Pcu :=
  let g := s.cfg.chan c
  let x := s.pcu.get c
  let x' := { x with latched := x.count, count := 0, figure := windowFigure g c x.count }
  let p := s.pcu.put c x'
  let p' := if c = .lp then
      { p with level := some (probeLevel s.cfg.fE s.cfg.fF s.cfg.tankDl g.window x.count) }
    else p
  (p', figureReports c)

/-- A pulse accepted at a channel in use, the PCU started: its active period makes no other (R1 to R3, R8). -/
def pcuPulse (c : Channel) (s : State) : Act Pcu :=
  let x := { s.pcu.get c with period := none }
  if c = .lp then quiet (s.pcu.put c (x.acceptProbe s.isRunning))
  else
    let r := x.accept (s.cfg.chan c) s.isRunning
    (s.pcu.put c r.1, if r.2 && s.isRunning then totalReports c r.1.total else [])

/-- An active stretch at a channel in use, the PCU started: a pulse, or a period still short of the width (R1). -/
def pcuStretch (c : Channel) (gap active : Nat) (s : State) : Act Pcu :=
  let g := s.cfg.chan c
  let x := s.pcu.get c
  if pulseWide g x.period gap active then pcuPulse c s
  else quiet (s.pcu.put c { x with period := activePeriod g x.period gap active })

/-- The PCU's act on what reaches it. -/
def pcuHandle (m : PcuMsg) (s : State) : Act Pcu :=
  match m with
  | .pulse c gap active =>
      if s.cfg.channelInUse c && s.pastStep 4 then pcuStretch c gap active s else quiet s.pcu
  | .window c => if s.cfg.channelInUse c && s.isRunning then pcuWindow c s else quiet s.pcu

end Sys2Proof.Machine
end

