-- ==== Sys2Proof/Machine/SetDispatch.lean ====
section
/-! DEFINITION. The Dispatch Unit (chapter 3, R38 to R60): the set state machine, the share setpoint, joining, start and stop contests, dead-bus recovery. -/

namespace Sys2Proof.Machine

/-! ### Reports of the DU -/

/-- The reports of a change of set state: the group figures, S on entry to ONBUS, an early STATE, the CC, the DU's own
tests (3.1, R22, R28, R46). -/
def moveReports (before after : SetState) : List Report :=
  [.pt .ownChanged] ++ (if after = .onbus then [.du .computeShare] else []) ++
  [.pt .reportable, .cc (.setChanged before after), .du .test]

/-- The reports of the breaker position alone: none unless it has changed (3.1, R22). -/
def positionReports (before after : Bool) : List Report :=
  if before = after then [] else [.pt .ownChanged, .pt .reportable, .du .test]

/-- A frame of the DU to all stations of the group. -/
def duFrame (s : State) (k : Kind) (payload : List Byte) : Report := .lc (.offer (groupFrame s.cfg k 0 payload))

/-! ### Entering set states -/

/-- The join request and all that hangs on it ends (R49). -/
def Du.clearJoin (d : Du) : Du :=
  { d with join := none, joinTimer := none, claim := none, claimHold := none, rival := none, claimWait := none }

/-- Entry to STOPPED.  A held start request is taken then, with the join request waiting for it (R38, R43, R44). -/
def enterStopped (d : Du) : Act Du :=
  let held := d.heldStart.isSome
  let d₁ := if held then d else { d.clearJoin with startIntent := none }
  ({ d₁ with state := .stopped, origin := none, cause := none, share := 0, tripIssued := false, startTimer := none,
             cooldown := none, ramp := none, stopRepeat := none },
    moveReports d.state .stopped ++ (if held then [.du .takeHeld] else []))

/-- Entry to COOLING with the cooldown and stop repeat timers as given (R41, R44). -/
def enterCooling (d : Du) (cooldown stopRepeat : Timer) : Act Du :=
  ({ d.clearJoin with
      state := .cooling, cooldown := cooldown, stopRepeat := stopRepeat, share := 0, tripIssued := false,
      startTimer := none, ramp := none, startIntent := none,
      stopIntent := if d.intentHold.isSome then d.stopIntent else none },
    moveReports d.state .cooling)

/-- Entry to READY: the start timer stops, the join timer of a held request starts unless it runs, and the request is
tried (R39, R49). -/
def enterReady (d : Du) : Act Du :=
  ({ d with state := .ready, startTimer := none,
            joinTimer := if d.join.isSome && d.joinTimer.isNone then some 60000 else d.joinTimer },
    moveReports d.state .ready ++ [.du .tryJoin])

/-- Entry to WARMING from a state other than CRANKING, with the start timer started (R38, R39). -/
def enterWarming (d : Du) : Act Du :=
  ({ d with state := .warming, startTimer := some 120000 }, moveReports d.state .warming)

/-- Entry to ONBUS with the breaker closed: join request, intent and every timer of the way there end (R41, R52).  A start
request held in COOLING ends with them (the model's choice, log 58). -/
def enterOnbus (d : Du) : Act Du :=
  ({ d.clearJoin with
      state := .onbus, breaker := true, startIntent := none, startTimer := none, cooldown := none,
      stopRepeat := none, heldStart := none, ramp := none, tripIssued := false },
    moveReports d.state .onbus)

/-- The set leaves the bus with its breaker open: COOLING with RUNNING active, STOPPED without (R41). -/
def leaveBus (d : Du) (s : State) : Act Du :=
  let d' := { d with breaker := false }
  if s.fli.inputs.running then enterCooling d' (some (s.cfg.cooldown * 1000)) none
  else enterStopped { d' with stopIntent := if d.intentHold.isSome then d.stopIntent else none }

/-- A recovery under way is set aside on entry to FAULT, to begin afresh (R56). -/
def Recovery.afterFault : Recovery → Recovery
  | .none => .none
  | .noPart | .escalating | .requested => .noPart

/-- Entry to FAULT (R42). In FAULT already, only FAULT INPUT replaces the cause.  The TRIP handed over at entry from RAMPDOWN
is not told to the CC as a TRIP of the ramp (the model's choice, log 59). -/
def enterFault (d : Du) (s : State) (cause : FaultCause) : Act Du :=
  if d.state = .fault then
    quiet (if cause = .faultInput then { d with cause := some .faultInput } else d)
  else
    let trip := (d.breaker || s.fli.closing) && cause != .tripFail
    let stop := s.fli.inputs.running && (cause == .startFail || cause == .closeFail)
    ({ d.clearJoin with
        state := .fault, cause := some cause, share := 0, tripIssued := false, startTimer := none, cooldown := none,
        ramp := none, stopRepeat := none, heldStart := none, startIntent := none, stopIntent := none,
        intentHold := none, recovery := d.recovery.afterFault, escalation := none },
      (if trip then [.fli (.command .breaker .off)] else []) ++
      (if stop then [.fli (.command .genset .off)] else []) ++ moveReports d.state .fault)

/-- The test that lets a set out of FAULT, made at each change of the three (R43). -/
def exitTest (d : Du) (s : State) : Act Du :=
  if d.state = .fault ∧ !s.fli.inputs.fault ∧ !s.fli.inputs.running ∧ !d.breaker then enterStopped d else quiet d

/-! ### Start and stop requests -/

/-- An origin after a request with origin `o` is absorbed: HAND and none give way (R38). -/
def absorbOrigin (old : Option Origin) (o : Origin) : Option Origin :=
  match old with
  | none | some .hand => some o
  | some x => some x

/-- A start request (R38).  Of two requests held in COOLING the newer one's origin stands (the model's choice, log 47). -/
def startRequest (d : Du) (s : State) (o : Origin) : Act Du :=
  match d.state with
  | .stopped =>
      ({ d with state := .cranking, origin := some o, startTimer := some 120000, heldStart := none },
        [.fli (.command .genset .on)] ++ moveReports .stopped .cranking)
  | .cranking | .warming | .ready => quiet { d with origin := absorbOrigin d.origin o }
  | .cooling =>
      if d.cooldown.isSome then
        let d' := { d with cooldown := none, origin := some o }
        if s.fli.inputs.ready then enterReady d' else enterWarming d'
      else quiet { d with heldStart := some o }
  | .onbus | .rampdown => quiet d
  | .fault => (d, if o = .call then [.cc .startFail] else [])

/-- A held start request taken at STOPPED (R38). -/
def takeHeld (d : Du) (s : State) : Act Du :=
  match d.heldStart with
  | some o => if d.state = .stopped then startRequest { d with heldStart := none } s o else quiet d
  | none => quiet d

/-- A held start request is dropped with the join request that waits for it (R38, R49). -/
def dropHeld (d : Du) : Du := if d.heldStart.isSome then { d.clearJoin with heldStart := none } else d

/-- A stop request (R44); it drops a held start request (R38). -/
def stopRequest (d : Du) (s : State) : Act Du :=
  let stopCmd : List Report := [.fli (.command .genset .off)]
  match d.state with
  | .cranking =>
      let x := if s.fli.inputs.running then enterCooling d none (some 30000)
               else enterStopped { d with heldStart := none }
      (x.1, stopCmd ++ x.2)
  | .warming | .ready =>
      let x := enterCooling d none (some 30000)
      (x.1, stopCmd ++ x.2)
  | .cooling => quiet (dropHeld d)
  | .stopped | .onbus | .rampdown | .fault => quiet d

/-- The CC's stop request: a set whose start origin is CALL is stopped, any other set is left as it stands (R59, R81);
a held start is dropped in either case (R38, log 49). -/
def ccStopRequest (d : Du) (s : State) : Act Du :=
  if d.origin = some .call then stopRequest d s else quiet (dropHeld d)

/-- The set of an intent withdrawn or lapsed is stopped when the intent started it (R52, R53). -/
def stopIfStarted (d : Du) (s : State) (sent : Keys) : Act Du :=
  if d.origin = some .dispatch ∧ sent.ready = false then stopRequest d s else quiet d

/-! ### Joining (3.3) -/

/-- Sends a DEADBUS CLAIM with the keys of this moment and starts the claim hold (R57, R58). -/
def sendClaim (d : Du) (s : State) : Act Du :=
  ({ d with join := some .byClaim, claim := some ⟨d.state == .ready, s.fu.hours⟩, claimHold := some 500,
            rival := none, claimWait := none },
    [duFrame s .deadbusClaim (flagByte (d.state == .ready) :: beBytes 2 s.fu.hours)])

/-- Carries a join request on, as far as the close condition lets it (R49, R57). -/
def tryJoin (d : Du) (s : State) : Act Du :=
  if d.state ≠ .ready ∨ s.fli.closing then quiet d
  else
    match d.join with
    | none => quiet d
    | some .bySync => (d, if s.fli.inputs.syncOk then [.fli (.command .breaker .on)] else [])
    | some .byClaim =>
        if !s.fli.inputs.busLive && d.claimHold.isNone && !s.lc.duplicate then sendClaim d s else quiet d

/-- A join request is made, or absorbed into the one held, its mode by BUS LIVE (R49).  One made in ONBUS, RAMPDOWN or
FAULT is dropped (the model's choice, log 48). -/
def joinRequest (d : Du) (s : State) : Act Du :=
  match d.state with
  | .onbus | .rampdown | .fault => quiet d
  | .stopped | .cranking | .warming | .ready | .cooling =>
      tryJoin { d with
        join := some (if s.fli.inputs.busLive then .bySync else .byClaim)
        joinTimer := if d.state = .ready ∧ d.joinTimer.isNone then some 60000 else d.joinTimer } s

/-- BUS LIVE changes: a request whose CLOSE is not issued takes the other mode; a live bus ends the claim hold and the
wait of a lost claim (R49, R57, R58). -/
def busLiveChange (d : Du) (s : State) (live : Bool) : Act Du :=
  let d₁ := if live then { d with claim := none, claimHold := none, rival := none, claimWait := none } else d
  let d₂ := if d₁.join.isSome && !s.fli.closing then
      { d₁ with join := some (if live then .bySync else .byClaim) } else d₁
  tryJoin d₂ s

/-- The claim hold ends: CLOSE follows on a bus still dead (R49, R57). -/
def claimHoldEnd (d : Du) (s : State) : Act Du :=
  if d.claimHold.isNone then quiet d
  else
    ({ d with claim := none, claimHold := none },
      if d.state = .ready ∧ d.join = some .byClaim ∧ !s.fli.inputs.busLive then [.fli (.command .breaker .on)] else [])

/-- A DEADBUS CLAIM heard: a rival ahead during the hold wins (R57).  A running escalation timer restarts from its full
length, which is the length it holds (R56). -/
def hearClaim (d : Du) (s : State) (station : Nat) (keys : Keys) : Act Du :=
  match d.claim with
  | some own =>
      if d.claimHold.isSome && startAhead keys station own s.cfg.station then
        tryJoin { d with claim := none, claimHold := none, rival := some station, claimWait := some 20000,
                         join := some .bySync } s
      else quiet d
  | none => quiet d

/-- The wait of a lost claim is over: on a bus still dead the request is BY CLAIM again, and the new claim is sent at
once, or when the set is next READY (R57, R58). -/
def claimWaitEnd (d : Du) (s : State) : Act Du :=
  if d.claimWait.isNone then quiet d
  else
    let d' := { d with claimWait := none, rival := none }
    if d.join.isSome ∧ !s.fli.inputs.busLive ∧ !s.lc.duplicate then tryJoin { d' with join := some .byClaim } s
    else quiet d'

/-- The join timer expires: the request and any intent end, the CC is told, and a set the intent started is stopped
(R49, R52). -/
def joinTimerEnd (d : Du) (s : State) : Act Du :=
  if d.joinTimer.isNone then quiet d
  else
    let d' := { d.clearJoin with startIntent := none }
    let x := match d.startIntent with
      | some sent => stopIfStarted d' s sent
      | none => quiet d'
    (x.1, [.cc .joinFail] ++ x.2 ++ [.du .test])

/-! ### The share setpoint and the ramp (3.2) -/

/-- S from the group figures (R46). -/
def shareOf (f : Figures) : Nat := clampTo 0 1250 (roundDiv ((f.load - f.releasing) * 1000) f.capacity)

/-- Computes S while ONBUS, once the first SE window of the start has expired (R45, R46). -/
def computeShare (d : Du) (s : State) : Du :=
  if d.state = .onbus ∧ d.shareArmed ∧ 0 < s.pt.figs.capacity then { d with share := shareOf s.pt.figs } else d

/-- Own output at or below 5 % of the rating (R47). -/
def lowOutput (s : State) : Bool := decide (s.outputKw * 20 ≤ s.cfg.rating)

/-- TRIP is issued in RAMPDOWN, and the CC told which event caused it (R47). -/
def issueTrip (d : Du) (o : EndOutcome) : Act Du :=
  ({ d with tripIssued := true, ramp := none }, [.fli (.command .breaker .off), .cc (.tripIssued o)])

/-- Entry to RAMPDOWN: S kept, the ramp timer started, TRIP at once on a low output (R47). -/
def enterRampdown (d : Du) (s : State) : Act Du :=
  let d' := { d with state := .rampdown, ramp := some 60000, tripIssued := false }
  if lowOutput s then
    let x := issueTrip d' .normal
    (x.1, moveReports d.state .rampdown ++ x.2)
  else (d', moveReports d.state .rampdown)

/-- The ramp is left for ONBUS while its TRIP is not issued (R48). -/
def resume (d : Du) : Act Du :=
  if d.state = .rampdown ∧ !d.tripIssued then
    ({ d with state := .onbus, ramp := none, stopIntent := none }, moveReports .rampdown .onbus)
  else quiet d

/-- The ramp is abandoned when no set is carrying (R48). -/
def abandonTest (d : Du) (s : State) : Act Du :=
  if d.state = .rampdown ∧ !d.tripIssued ∧ s.pt.figs.carrying = 0 then
    let x := resume d
    (x.1, x.2 ++ [.cc .rampAbandoned])
  else quiet d

/-- An SE window expires: the low output test of the ramp, and the first computation of S after a start (R45, R47). -/
def seWindow (d : Du) (s : State) : Act Du :=
  let d' := computeShare { d with shareArmed := true } s
  if d.shareArmed then
    (if d.state = .rampdown ∧ !d.tripIssued ∧ lowOutput s then issueTrip d .normal else quiet d)
  else if d.state = .rampdown ∧ !d.tripIssued ∧ lowOutput s then issueTrip d' .normal
  else quiet d'

/-! ### Ranks of the group (R51, R54, R55) -/

/-- The own set is an eligible standby (R51). -/
def ownEligible (d : Du) (s : State) : Bool :=
  s.cfg.setFitted && (d.state == .stopped || d.state == .ready) && !d.breaker && s.fu.threshold == .normal &&
  s.cc.state == .idle

/-- A peer's set is an eligible standby (R51). -/
def peerEligible (f : PeerFields) : Bool :=
  f.setFitted && (f.setState == .stopped || f.setState == .ready) && !f.onBus && f.threshold == .normal &&
  f.handover == .idle

/-- The own place in start rank among the eligible standbys of the own view (R51). -/
def startPlace (d : Du) (s : State) : Nat :=
  1 + (s.pt.entries.filter fun e => peerEligible e.fields &&
    startAhead ⟨e.fields.setState == .ready, e.fields.hours⟩ e.station ⟨d.state == .ready, s.fu.hours⟩
      s.cfg.station).length

/-- A carrying set of this rating is a stop candidate (R54). -/
def stopCandidate (s : State) (rating : Nat) : Bool :=
  decide (2 ≤ s.pt.figs.carrying) &&
  decide (s.pt.figs.load * 100 < s.cfg.stopThr * (s.pt.figs.capacity - rating))

/-- The own set is the first stop candidate in stop rank (R55). -/
def firstToStop (s : State) : Bool :=
  stopCandidate s s.cfg.rating &&
  !(s.pt.entries.any fun e => e.fields.onBus && e.fields.setState != .rampdown && stopCandidate s e.fields.rating &&
    stopAhead e.fields.hours e.station s.fu.hours s.cfg.station)

/-! ### Dwells and dead-bus recovery -/

/-- A dwell timer after its need and hold have been tested (R50, R54). -/
def nextDwell (cur : Dwell) (need held : Bool) (ms : Nat) : Dwell :=
  if !need then .off
  else
    match cur with
    | .off => if held then .held ms else .running ms
    | .running n => if held then .held n else .running n
    | .held n => if held then .held n else .running n

/-- A set that is CRANKING or WARMING (R50). -/
def comingUp (st : SetState) : Bool := st == .cranking || st == .warming

/-- The start need (R50). -/
def startNeed (s : State) : Bool :=
  s.cfg.setFitted && decide (s.cfg.startThr * s.pt.figs.capacity < s.pt.figs.load * 100)

/-- The hold of the start dwell (R50). -/
def startHeld (d : Du) (s : State) : Bool :=
  s.pt.figs.handoverInGroup || comingUp d.state || (s.pt.entries.any fun e => comingUp e.fields.setState) ||
  d.startIntent.isSome

/-- The stop need (R54). -/
def stopNeed (d : Du) (s : State) : Bool := d.state == .onbus && stopCandidate s s.cfg.rating

/-- The hold of the stop dwell (R54). -/
def stopHeld (d : Du) (s : State) : Bool :=
  s.pt.figs.handoverInGroup || decide (0 < s.pt.figs.releasing) || d.stopIntent.isSome

/-- Both dwell timers tested; they do not run before the end of start-up nor under DUPLICATE (R45, R50, R54, R60). -/
def testDwells (d : Du) (s : State) : Du :=
  if s.isRunning && !s.lc.duplicate then
    { d with startDwell := nextDwell d.startDwell (startNeed s) (startHeld d s) (s.cfg.startDwell * 1000)
             stopDwell := nextDwell d.stopDwell (stopNeed d s) (stopHeld d s) (s.cfg.stopDwell * 1000) }
  else { d with startDwell := .off, stopDwell := .off }

/-- The start and join requests of a recovery (R56). -/
def recoveryRequests (d : Du) (s : State) : Act Du :=
  (startRequest { d with recovery := .requested, escalation := none } s .recovery).andThen fun e => joinRequest e s

/-- Recovery begins by the own place in start rank (R56). -/
def beginRecovery (d : Du) (s : State) : Act Du :=
  if !ownEligible d s then quiet { d with recovery := .noPart }
  else if startPlace d s = 1 then recoveryRequests d s
  else quiet { d with recovery := .escalating, escalation := some ((startPlace d s - 1) * 20000) }

/-- The dead-bus timer's conditions (R56). -/
def deadBusHolds (d : Du) (s : State) : Bool :=
  s.isRunning && s.cfg.setFitted && !s.lc.duplicate && !s.fli.inputs.busLive && s.pt.figs.peersOnBus == 0 &&
  !d.breaker

/-- A recovery has made its requests and a peer is shown on bus: the join request is BY SYNC.  A claim already sent, or
a CLOSE already handed over, goes on under R57, and the request it belongs to stays BY CLAIM, also for a set that is
back in WARMING when the claim hold ends (R56; what goes on is the model's choice, log 55). -/
def recoveryOvertaken (d : Du) (s : State) : Bool :=
  d.recovery == .requested && s.pt.figs.peersOnBus != 0 && d.join.isSome && d.claimHold.isNone && !s.fli.closing

/-- The end of a recovery (R56). -/
def endRecovery (d : Du) (s : State) : Act Du :=
  let d' := { d with deadBus := none, recovery := .none, escalation := none }
  if recoveryOvertaken d s then tryJoin { d' with join := some .bySync } s else quiet d'

/-- The dead-bus timer and the recovery tested (R56, R60). -/
def testDeadBus (d : Du) (s : State) : Act Du :=
  if !deadBusHolds d s then endRecovery d s
  else
    match d.recovery with
    | .none => quiet { d with deadBus := some 2000 }
    | .noPart => if ownEligible d s then beginRecovery d s else quiet d
    | .escalating | .requested => quiet d

/-- The DU's tests of all its conditions. -/
def duTest (d : Du) (s : State) : Act Du := testDeadBus (testDwells d s) s

/-- The dead-bus timer expires (R56). -/
def deadBusEnd (d : Du) (s : State) : Act Du :=
  if d.deadBus.isNone then quiet d else beginRecovery { d with deadBus := none } s

/-- The escalation timer expires (R56). -/
def escalationEnd (d : Du) (s : State) : Act Du :=
  if d.escalation.isNone then quiet d else recoveryRequests d s

/-! ### Start and stop contests -/

/-- The start dwell timer expires (R52). -/
def startDwellEnd (d : Du) (s : State) : Act Du :=
  match d.startDwell with
  | .off | .held _ => quiet d
  | .running _ =>
      let d' := { d with startDwell := .off }
      let x :=
        if !s.lc.duplicate && ownEligible d s && startPlace d s == 1 then
          let keys : Keys := ⟨d.state == .ready, s.fu.hours⟩
          let y := (if d.state = .stopped then startRequest { d' with startIntent := some keys } s .dispatch
                    else quiet { d' with startIntent := some keys }).andThen fun e => joinRequest e s
          (y.1, duFrame s .startIntent (flagByte keys.ready :: beBytes 2 keys.hours) :: y.2)
        else quiet d'
      (x.1, x.2 ++ [.du .test])

/-- A START INTENT heard (R53). -/
def hearStartIntent (d : Du) (s : State) (station : Nat) (keys : Keys) : Act Du :=
  match d.startIntent with
  | none => quiet d
  | some sent =>
      if d.state = .onbus ∨ !startAhead keys station sent s.cfg.station then quiet d
      else (stopIfStarted { d.clearJoin with startIntent := none } s sent).andThen fun e => (e, [.du .test])

/-- The stop dwell timer expires (R55). -/
def stopDwellEnd (d : Du) (s : State) : Act Du :=
  match d.stopDwell with
  | .off | .held _ => quiet d
  | .running _ =>
      let d' := { d with stopDwell := .off }
      let x :=
        if !s.lc.duplicate && d.state == .onbus && firstToStop s then
          ({ d' with stopIntent := some s.fu.hours, intentHold := some 3000 },
            [duFrame s .stopIntent (beBytes 2 s.fu.hours)])
        else quiet d'
      (x.1, x.2 ++ [.du .test])

/-- A STOP INTENT heard (R55). -/
def hearStopIntent (d : Du) (s : State) (station hours : Nat) : Act Du :=
  match d.stopIntent with
  | none => quiet d
  | some own =>
      if d.intentHold.isSome && stopAhead hours station own s.cfg.station then
        ({ d with stopIntent := none, intentHold := none }, [.du .test])
      else quiet d

/-- The intent hold ends (R55). -/
def intentHoldEnd (d : Du) (s : State) : Act Du :=
  if d.intentHold.isNone then quiet d
  else if d.state = .onbus ∧ 2 ≤ s.pt.figs.carrying then enterRampdown { d with intentHold := none } s
  else ({ d with intentHold := none, stopIntent := none }, [.du .test])

/-- DUPLICATE is set: intents and claim holds are void, the contests' timers stop (R60).  A start request held in
COOLING stays held (the model's choice, log 46). -/
def duDuplicate (d : Du) : Du :=
  { d with
    startIntent := none
    stopIntent := if d.intentHold.isSome then none else d.stopIntent
    intentHold := none, claim := none, claimHold := none, startDwell := .off, stopDwell := .off
    deadBus := none, recovery := .none, escalation := none }

/-! ### Inputs and breaker -/

/-- RUNNING changes (R39, R42 to R44).  In STOPPED it is a hand start also when a START was issued earlier and a stop
request or a fault has ended what it began (the model's choice, log 62). -/
def runningChange (d : Du) (s : State) (b : Bool) : Act Du :=
  match d.state, b with
  | .cranking, true =>
      if s.fli.inputs.ready then enterReady d else ({ d with state := .warming }, moveReports .cranking .warming)
  | .stopped, true =>
      let d' := { d with origin := some .hand }
      if s.fli.inputs.ready then enterReady d' else enterWarming d'
  | .warming, false | .ready, false =>
      (enterStopped { d with startIntent := none, heldStart := none }).andThen fun e => (e, [.cc .startFail])
  | .onbus, false | .rampdown, false => enterFault d s .runLost
  | .cooling, false => enterStopped d
  | .fault, _ => exitTest d s
  | .stopped, false | .cranking, false | .warming, true | .ready, true | .onbus, true | .rampdown, true
  | .cooling, true => quiet d

/-- READY changes; not acted on while the breaker is closed (R39). -/
def readyChange (d : Du) (b : Bool) : Act Du :=
  if d.breaker then quiet d
  else
    match d.state, b with
    | .warming, true => enterReady d
    | .ready, false => enterWarming d
    | _, _ => quiet d

/-- FAULT changes (R42, R43). -/
def faultChange (d : Du) (s : State) (b : Bool) : Act Du :=
  if b then enterFault d s .faultInput else exitTest d s

/-- The breaker is found closed, by a confirmed CLOSE or uncommanded (R41). -/
def breakerClosed (d : Du) (s : State) (commanded : Bool) : Act Du :=
  let d' := { d with breaker := true }
  match d.state with
  | .warming | .ready | .cooling => enterOnbus d'
  | .stopped | .cranking => enterFault d' s .runLost
  | .fault => (d', (if commanded then [.fli (.command .breaker .off)] else []) ++ positionReports d.breaker true)
  | .onbus | .rampdown => (d', positionReports d.breaker true)

/-- The breaker is found open, by a confirmed TRIP or uncommanded (R41, R42, R43). -/
def breakerOpened (d : Du) (s : State) : Act Du :=
  match d.state with
  | .onbus | .rampdown => leaveBus d s
  | .fault => (exitTest { d with breaker := false } s).andThen fun e => (e, positionReports d.breaker false)
  | .stopped | .cranking | .warming | .ready | .cooling =>
      ({ d with breaker := false }, positionReports d.breaker false)

/-- A failed CLOSE or TRIP: the position is as BRK shows it, the set enters FAULT (R12, R42, R43), and the CC is told of
a TRIP FAIL, also when the set is in FAULT already (R77). -/
def breakerFailed (d : Du) (s : State) (c : Sense) : Act Du :=
  let d' := { d with breaker := s.fli.inputs.brk }
  let entered (cause : FaultCause) : Act Du :=
    if d.state = .fault then (exitTest d' s).andThen fun e => (e, positionReports d.breaker d'.breaker)
    else enterFault d' s cause
  match c with
  | .on => entered .closeFail
  | .off => (entered .tripFail).andThen fun e => (e, [.cc .tripFail])

/-- The start timer expires in CRANKING or WARMING (R40). -/
def startTimerEnd (d : Du) (s : State) : Act Du :=
  if d.startTimer.isSome && comingUp d.state then
    (enterFault d s .startFail).andThen fun e => (e, [.cc .startFail])
  else quiet d

/-- The cooldown timer expires (R44). -/
def cooldownEnd (d : Du) : Act Du :=
  if d.cooldown.isSome && d.state == .cooling then
    ({ d with cooldown := none, stopRepeat := some 30000 }, [.fli (.command .genset .off)])
  else quiet d

/-- The stop repeat timer expires (R44). -/
def stopRepeatEnd (d : Du) (s : State) : Act Du :=
  if d.stopRepeat.isSome && s.fli.inputs.running then
    ({ d with stopRepeat := some 30000 }, [.fli (.command .genset .off)])
  else quiet d

/-- A second in RAMPDOWN before TRIP (R47). -/
def rampSecond (d : Du) (s : State) : Du :=
  if d.state = .rampdown ∧ !d.tripIssued then { d with share := d.share - s.cfg.rampRate * 10 } else d

/-- The ramp timer expires (R47). -/
def rampTimerEnd (d : Du) : Act Du :=
  if d.state = .rampdown ∧ d.ramp.isSome ∧ !d.tripIssued then issueTrip d .forced else quiet d

/-- The set state of Table 3-2. -/
def rebuiltState (l : Levels) : SetState :=
  if l.fault then .fault
  else if !l.running then (if l.brk then .fault else .stopped)
  else if l.brk then .onbus
  else if l.ready then .ready
  else .warming

/-- The set rebuilt from the sampled inputs at step 6 of a start (R45, Table 3-2). -/
def duRebuild (s : State) : Act Du :=
  let l := s.fli.inputs
  let st := rebuiltState l
  let cause : Option FaultCause :=
    if l.fault then some .faultInput else if st = .fault then some .runLost else none
  ({ Du.start with
      state := st, breaker := l.brk, cause := cause
      origin := if l.running then some .hand else none
      startTimer := if st = .warming then some 120000 else none },
    if st = .fault ∧ l.brk then [.fli (.command .breaker .off)] else [])

/-- The DU's act on what reaches it. -/
def duHandle (m : DuMsg) (s : State) : Act Du :=
  let d := s.du
  match m with
  | .running b => runningChange d s b
  | .readyInput b => readyChange d b
  | .faultInput b => faultChange d s b
  | .busLive b => (busLiveChange d s b).andThen fun e => (e, [.du .test])
  | .syncOk b => if b then tryJoin d s else quiet d
  | .confirmed c => match c with
      | .on => breakerClosed d s true
      | .off => breakerOpened d s
  | .failed c => breakerFailed d s c
  | .uncommanded b => if b then breakerClosed d s false else breakerOpened d s
  | .seTotal t => quiet { d with heldSe := t }
  | .seWindow => seWindow d s
  | .figures power =>
      (abandonTest (if power then computeShare d s else d) s).andThen fun e => (e, [.du .test])
  | .test => duTest d s
  | .computeShare => quiet (computeShare d s)
  | .tryJoin => tryJoin d s
  | .takeHeld => takeHeld d s
  | .peerLost n =>
      (if d.rival = some n then claimWaitEnd d s else quiet d).andThen fun e => (e, [.du .test])
  | .duplicate => quiet (duDuplicate d)
  | .startTimer => startTimerEnd d s
  | .cooldown => cooldownEnd d
  | .stopRepeat => stopRepeatEnd d s
  | .rampSecond => quiet (rampSecond d s)
  | .rampTimer => rampTimerEnd d
  | .joinTimer => joinTimerEnd d s
  | .startDwell => startDwellEnd d s
  | .stopDwell => stopDwellEnd d s
  | .intentHold => intentHoldEnd d s
  | .deadBus => deadBusEnd d s
  | .escalation => escalationEnd d s
  | .claimHold => claimHoldEnd d s
  | .claimWait => claimWaitEnd d s
  | .startIntent n k => hearStartIntent d s n k
  | .stopIntent n h => hearStopIntent d s n h
  | .claim n k => hearClaim d s n k
  | .reqStart => startRequest d s .call
  | .reqJoin => joinRequest d s
  | .reqRamp => if d.state = .onbus then enterRampdown d s else (d, [.cc .rampRefused])
  | .reqResume => resume d
  | .reqTrip => (d, if d.state = .onbus then [.fli (.command .breaker .off)] else [])
  | .reqStop => ccStopRequest d s

end Sys2Proof.Machine
end

