-- ==== Sys2Proof/Machine/Shedding.lean ====
section
/-! DEFINITION. The Shed Controller (chapter 5, R88 to R106): feeder records, shed list, rotation, overload and dead-bus shedding, restoration. -/

namespace Sys2Proof.Machine

/-! ### Records, lists, summary -/

/-- A feeder is on the shed list. -/
def Sc.listed (c : Sc) (n : FeederId) : Bool := c.shedList.any (·.feeder == n)

/-- NORMAL: neither FAILED nor on the shed list (R88). -/
def Sc.normal (c : Sc) (n : FeederId) : Bool := c.status n == .normal

/-- The SC with a feeder's record replaced. -/
def Sc.putRec (c : Sc) (n : FeederId) (r : Feeder) : Sc := { c with recs := c.recs.put n r }

/-- An entry made: one already there keeps its place and takes the new cause (R91). -/
def enterShed (l : List ShedEntry) (n : FeederId) (why : ShedCause) : List ShedEntry :=
  if l.any (·.feeder == n) then l.map fun e => if e.feeder == n then { e with cause := why } else e
  else l ++ [⟨n, why⟩]

/-- An entry made unless one is there already (R97, R99). -/
def enterIfAbsent (l : List ShedEntry) (n : FeederId) (why : ShedCause) : List ShedEntry :=
  if l.any (·.feeder == n) then l else l ++ [⟨n, why⟩]

/-- A feeder's entry removed (R91). -/
def leaveShed (l : List ShedEntry) (n : FeederId) : List ShedEntry := l.filter fun e => e.feeder != n

/-- The rotation order of a class; PROTECTED has none (R90). -/
def Sc.rotation (c : Sc) : FeederClass → List FeederId
  | .showClass => c.rotShow
  | .vendor => c.rotVendor
  | .amenity => c.rotAmenity
  | .protectedClass => []

/-- A feeder moved from its place to the tail of a list that names it. -/
def toTail (l : List FeederId) (n : FeederId) : List FeederId :=
  if l.contains n then l.filter (· != n) ++ [n] else l

/-- A feeder moved to the tail of its class's rotation order (R90). -/
def Sc.rotate (c : Sc) (n : FeederId) : Sc :=
  { c with rotShow := toTail c.rotShow n, rotVendor := toTail c.rotVendor n, rotAmenity := toTail c.rotAmenity n }

/-- The sheddable classes, lowest priority first (R89). -/
def ClassOrder.rising (o : ClassOrder) : List FeederClass := [o.lowest, o.middle, o.highest]

/-- The head of a class (R90). -/
def Sc.head (c : Sc) (k : FeederClass) : Option FeederId :=
  (c.rotation k).find? fun n => (c.recs.get n).closed && c.normal n && (c.recs.get n).inFlight.isNone

/-- The shed summary as the records and the list stand (R92).  A feeder on the list is not NORMAL (R88) and does not count
for the class, also while its dead-bus FOFF is in flight (the model's choice, log 60). -/
def summaryOf (g : Cfg) (c : Sc) : ShedSummary :=
  { cls := g.order.rising.find? fun k => (c.rotation k).any fun n => (c.recs.get n).closed && c.normal n
    count := (c.shedList.filter fun e => g.cls.get e.feeder != .protectedClass).length }

/-- A FON is in flight at the station (R101). -/
def Sc.fonInFlight (c : Sc) : Bool := FeederId.every.any fun n => (c.recs.get n).inFlight == some .fon

/-- The reports of an act on feeder records: the summary and a waiting attempt are tested, and restoration when the
list has changed or the FON in flight has ended (R92, R96, R101). -/
def scDone (old new : Sc) : Act Sc :=
  (new, .sc .changed ::
    (if new.shedList ≠ old.shedList ∨ (old.fonInFlight ∧ ¬new.fonInFlight) then [.sc .restoreTest] else []))

/-! ### Overload shedding (R95 to R97) -/

/-- The overload condition (R95). -/
def overloaded (s : State) : Bool :=
  s.fli.inputs.busLive && decide (s.cfg.overload * s.pt.figs.capacity < s.pt.figs.load * 100)

/-- The lowest class with a head, and that head (R96). -/
def shedCandidate (o : ClassOrder) (c : Sc) : Option (FeederClass × FeederId) :=
  o.rising.findSome? fun k => (c.head k).map fun n => (k, n)

/-- A peer shows a class of lower priority than `k` (R96). -/
def peerLower (s : State) (k : FeederClass) : Bool :=
  match s.pt.figs.lowestShed with
  | some p => decide (priority s.cfg.order p < priority s.cfg.order k)
  | none => false

/-- FOFF for the candidate, and the settle hold (R97). -/
def shedOne (c : Sc) (n : FeederId) : Act Sc :=
  ({ c.putRec n { c.recs.get n with inFlight := some .foffOverload, steady := false } with
      settle := some 10000, waiting := false },
    [.fli (.command (.feeder n) .off), .sc .changed])

/-- A shed attempt: shed, wait on a peer, or hold the attempt for want of a candidate (R96). -/
def shedAttempt (c : Sc) (s : State) : Act Sc :=
  match shedCandidate s.cfg.order c with
  | some (k, n) => if peerLower s k then quiet { c with waiting := true } else shedOne c n
  | none => quiet { c with waiting := true }

/-- The test of the overload condition: its beginning starts the confirm window, its ceasing stops the window and any
waiting (R95, R96). -/
def overloadTest (c : Sc) (s : State) : Sc :=
  if overloaded s then
    (if !c.overload && c.window.isNone && c.settle.isNone then { c with overload := true, window := some 2000 }
     else { c with overload := true })
  else { c with overload := false, window := none, waiting := false }

/-- The confirm window expires (R95). -/
def confirmWindowEnd (c : Sc) (s : State) : Act Sc :=
  if c.window.isNone then quiet c
  else
    (if c.overload then shedAttempt { c with window := none } s else quiet { c with window := none }).andThen
      fun d => (d, [.sc .restoreTest])

/-- The settle hold ends: the confirm window starts again if the overload holds (R95, R97). -/
def settleEnd (c : Sc) : Act Sc :=
  if c.settle.isNone then quiet c
  else
    ({ c with settle := none, window := if c.overload && c.window.isNone then some 2000 else c.window },
      [.sc .restoreTest])

/-! ### Dead-bus shedding (R98, R99) -/

/-- The feeders a dead bus sheds, in class and rotation order (R98). -/
def deadBusFeeders (o : ClassOrder) (c : Sc) : List FeederId :=
  (o.rising.flatMap c.rotation).filter fun n =>
    (c.recs.get n).failed.isNone && ((c.recs.get n).closed || (c.recs.get n).inFlight == some .fon)

/-- A feeder entered and marked with the FOFF of a dead-bus shed; an FOFF of an overload shed in flight carries on
(R98, R99). -/
def deadBusMark (c : Sc) (n : FeederId) : Sc :=
  let r := c.recs.get n
  { c.putRec n { r with
      steady := false
      inFlight := if r.inFlight = some .foffOverload then some .foffOverload else some .foffDeadBus } with
    shedList := enterShed c.shedList n .deadBus }

/-- The dead-bus shed (R98). -/
def deadBusShed (c : Sc) (s : State) : Act Sc :=
  let fs := deadBusFeeders s.cfg.order c
  ({ fs.foldl deadBusMark c with settle := some 10000, window := none, waiting := false, overload := false },
    fs.map (fun n => .fli (.command (.feeder n) .off)) ++ [.sc .changed])

/-! ### Restoration (R101 to R103) -/

/-- Restoration is open (R101). -/
def mayRestore (c : Sc) (s : State) : Bool :=
  s.fli.inputs.busLive && c.window.isNone && c.settle.isNone && c.spacing.isNone && !c.fonInFlight &&
  s.cc.state != .parallel && s.cc.state != .deadbus

/-- The better of two restore candidates: the earlier one unless the later has a higher class priority (R102). -/
def betterEntry (g : Cfg) (best : Option FeederId) (n : FeederId) : Option FeederId :=
  match best with
  | none => some n
  | some b => if priority g.order (g.cls.get b) < priority g.order (g.cls.get n) then some n else some b

/-- The restore candidate (R102). -/
def restoreCandidate (g : Cfg) (c : Sc) : Option FeederId :=
  ((c.shedList.map (·.feeder)).filter fun n => (c.recs.get n).failed.isNone).foldl (betterEntry g) none

/-- The candidate fits (R102). -/
def fits (s : State) (k : Nat) : Bool :=
  decide ((s.pt.figs.load + k) * 100 ≤ s.cfg.restore * s.pt.figs.capacity)

/-- Restore spacing: 5 s and the station's stagger (R103). -/
def restoreSpacing (station : Nat) : Nat := 5000 + station * 200

/-- A restore test (R101 to R103). -/
def restoreTest (c : Sc) (s : State) : Act Sc :=
  if mayRestore c s then
    match restoreCandidate s.cfg c with
    | some n =>
        let r := c.recs.get n
        if fits s (r.lastKw.getD 0) then
          ({ c.putRec n { r with inFlight := some .fon, steady := false } with
              spacing := some (restoreSpacing s.cfg.station) },
            [.fli (.command (.feeder n) .on)])
        else quiet c
    | none => quiet c
  else quiet c

/-- The restore spacing timer expires (R103). -/
def spacingEnd (c : Sc) : Act Sc :=
  if c.spacing.isNone then quiet c else ({ c with spacing := none }, [.sc .restoreTest])

/-! ### Results of commands (R97 to R99, R103) -/

/-- A feeder's position is set; a change of it clears the steady mark (R93). -/
def Feeder.move (r : Feeder) (closed : Bool) : Feeder :=
  { r with closed := closed, steady := r.steady && (r.closed == closed) }

/-- A command is confirmed. -/
def scConfirmed (c : Sc) (n : FeederId) (k : Sense) : Act Sc :=
  let r := c.recs.get n
  scDone c <|
    match k, r.inFlight with
    | .on, some .fon =>
        { (c.putRec n { r.move true with inFlight := none }).rotate n with shedList := leaveShed c.shedList n }
    | .on, _ => c.putRec n (r.move true)
    | .off, some .foffOverload =>
        { c.putRec n { r.move false with inFlight := none } with
          shedList := enterIfAbsent c.shedList n .overload }
    | .off, some .foffDeadBus => c.putRec n { r.move false with inFlight := none }
    | .off, _ => c.putRec n (r.move false)

/-- A command has failed. -/
def scFailed (c : Sc) (n : FeederId) (k : Sense) : Act Sc :=
  let r := c.recs.get n
  scDone c <|
    match k, r.inFlight with
    | .on, some .fon => c.putRec n { r with inFlight := none, failed := some .restore }
    | .on, _ => c.putRec n { r with failed := some .restore }
    | .off, some .foffOverload =>
        { c.putRec n { r with inFlight := none, failed := some .overload } with shedList := leaveShed c.shedList n }
    | .off, some .foffDeadBus =>
        { c.putRec n { r with inFlight := none, failed := some .deadBus } with shedList := leaveShed c.shedList n }
    | .off, _ => c.putRec n { r with failed := some .deadBus }

/-- A feeder leaves FAILED by an uncommanded change (R104, Table 5-2). -/
def leaveFailed (c : Sc) (n : FeederId) (why : FailedCause) (closed : Bool) : Sc :=
  let d := c.putRec n { (c.recs.get n).move closed with failed := none }
  match why, closed with
  | .overload, false => { d with shedList := enterShed d.shedList n .overload }
  | .deadBus, false => { d with shedList := enterShed d.shedList n .deadBus }
  | .restore, false => d
  | .overload, true | .deadBus, true => d.rotate n
  | .restore, true => { d.rotate n with shedList := leaveShed d.shedList n }

/-- An uncommanded change of FFB (R104, R105). -/
def scUncommanded (c : Sc) (n : FeederId) (closed : Bool) : Act Sc :=
  scDone c <|
    match (c.recs.get n).failed, closed with
    | some why, _ => leaveFailed c n why closed
    | none, true =>
        { (c.putRec n ((c.recs.get n).move true)).rotate n with shedList := leaveShed c.shedList n }
    | none, false => c.putRec n ((c.recs.get n).move false)

/-! ### Windows, seconds, changes -/

/-- A feeder channel's window expires (R93). -/
def feederWindow (c : Sc) (s : State) (n : FeederId) : Sc :=
  let r := c.recs.get n
  let quietNow := r.closed && r.inFlight.isNone
  c.putRec n { r with
    lastKw := if r.steady && quietNow then some (s.pcu.f.get n).figure else r.lastKw
    steady := quietNow }

/-- The feeder counts an energised second (R94). -/
def energisedNow (s : State) (n : FeederId) : Bool :=
  s.cfg.fitted.get n && (s.sc.recs.get n).closed && s.fli.inputs.busLive

/-- The one-second timer (R94, R145). -/
def scSecond (c : Sc) (s : State) : Act Sc :=
  ({ c with recs := Quad.ofFn fun n =>
      let r := c.recs.get n
      if energisedNow s n then { r with energised := r.energised + 1 } else r },
    (FeederId.every.filter (energisedNow s)).map (fun n => .bu (.energised n)) ++ [.bu .secondMark])

/-- The summary computed again, and a waiting attempt repeated (R92, R96). -/
def scChanged (c : Sc) (s : State) : Act Sc :=
  let sum := summaryOf s.cfg c
  let d := { c with summary := sum }
  let x := if c.waiting then shedAttempt d s else quiet d
  (x.1, (if sum = c.summary then [] else [.pt .reportable]) ++ x.2)

/-- BUS LIVE changes (R95, R98, R106). -/
def scBusLive (c : Sc) (s : State) (live : Bool) : Act Sc :=
  if live then restoreTest (overloadTest c s) s else deadBusShed c s

/-- Changed figures: C or L, the lowest peer shed class (R95, R96, R101). -/
def scFigures (c : Sc) (s : State) (power cls : Bool) : Act Sc :=
  let d := if power then overloadTest c s else c
  (if cls && d.waiting then shedAttempt d s else quiet d).andThen fun e =>
    (e, if power then [.sc .restoreTest] else [])

/-- The end of start-up (R100). -/
def scEndOfStart (c : Sc) (s : State) : Act Sc :=
  if s.fli.inputs.busLive then restoreTest (overloadTest c s) s else deadBusShed c s

/-- The records and lists rebuilt at step 6 of a start (R100). -/
def scRebuild (s : State) : Sc :=
  let g := s.cfg
  let ofClass (k : FeederClass) : List FeederId :=
    FeederId.every.filter fun n => g.fitted.get n && g.cls.get n == k
  let recs := Quad.ofFn fun n => { Feeder.start with closed := g.fitted.get n && s.fli.inputs.ffb.get n }
  let openOnes := ((FeederClass.protectedClass :: g.order.rising.reverse).flatMap ofClass).filter fun n =>
    !(recs.get n).closed
  let c : Sc := { Sc.start with
    recs := recs, shedList := openOnes.map fun n => ⟨n, .openAtStart⟩
    rotShow := ofClass .showClass, rotVendor := ofClass .vendor, rotAmenity := ofClass .amenity }
  { c with summary := summaryOf g c }

/-- The SC's act on what reaches it: none with no feeder fitted but the second mark the BU counts by, none before the
end of start-up (5.1, R94, R100).  A change of C, L, the peers' class or the handover state that a frame brings between
step 8 and there is first tested at that end (the model's choice, log 63). -/
def scHandle (m : ScMsg) (s : State) : Act Sc :=
  let c := s.sc
  if !s.isRunning then quiet c
  else if m = .second then scSecond c s
  else if !s.cfg.anyFeeder then quiet c
  else
    match m with
    | .busLive b => scBusLive c s b
    | .figures power cls => scFigures c s power cls
    | .handover before => if before = .parallel ∨ before = .deadbus then restoreTest c s else quiet c
    | .restoreTest => restoreTest c s
    | .confirmed n k => scConfirmed c n k
    | .failed n k => scFailed c n k
    | .uncommanded n closed => scUncommanded c n closed
    | .fWindow n => quiet (feederWindow c s n)
    | .second => scSecond c s
    | .window => confirmWindowEnd c s
    | .settle => settleEnd c
    | .spacing => spacingEnd c
    | .changed => scChanged c s
    | .endOfStart => scEndOfStart c s

end Sys2Proof.Machine
end

