-- ==== Sys2Proof/Machine/Store.lean ====
section
/-! DEFINITION. The retained store (chapter 10, R180, R181): writes, their completion and loss, and the reading of the records at a start. -/

namespace Sys2Proof.Machine

/-! ### One record -/

/-- A change of contents is handed over: a write begins with them, or the running write is to be followed by another
(R180). -/
def Rec.touch {α : Type} (r : Rec α) (now : α) : Rec α :=
  match r.writing with
  | none => { r with writing := some now, again := false }
  | some _ => { r with again := true }

/-- The running write ends; a marked record is written once more with the contents of that moment (R180). -/
def Rec.written {α : Type} (r : Rec α) (now : α) : Rec α :=
  match r.writing with
  | none => r
  | some c => { stored := .good c, writing := if r.again then some now else none, again := false }

/-- A write in progress is completed before a start begins, the marked one after it too (R177, R180, log 9). -/
def Rec.finish {α : Type} (r : Rec α) (now : α) : Rec α :=
  match r.writing with
  | none => r
  | some c => { stored := .good (if r.again then now else c), writing := none, again := false }

/-- Loss of power cuts a write in progress off: the record will fail its check (R177). -/
def Rec.cut {α : Type} (r : Rec α) : Rec α :=
  match r.writing with
  | none => r
  | some _ => { stored := .damaged, writing := none, again := false }

/-- The record fails its check (R181). -/
def Rec.damaged {α : Type} (r : Rec α) : Bool :=
  match r.stored with
  | .damaged => true
  | .absent | .good _ => false

/-- What the owner is handed at a start: the contents, or the value of Table 10-4. -/
def Rec.read {α : Type} (r : Rec α) (empty : α) : α :=
  match r.stored with
  | .good a => a
  | .absent | .damaged => empty

/-! ### The contents each owner holds (Table 10-3) -/

def fuelBookOf (f : Fu) : FuelBook := ⟨f.lots, f.overdraw, f.heldPrice⟩

def shrinkOf (f : Fu) : ShrinkBook := ⟨f.shrinkValue, f.recon⟩

/-- The slot record `i` with a function of it and of the slot's present contents applied. -/
def onSlots (l : List (Rec Slot)) (slots : List Slot) (i : Nat) (f : Rec Slot → Slot → Rec Slot) : List (Rec Slot) :=
  match l[i]? with
  | some r => l.set i (f r (slots.getD i .free))
  | none => l

/-- A record handed to the SR. -/
def Store.touch (t : Store) (s : State) (r : RecordId) : Store :=
  match r with
  | .fuelBook => { t with fuelBook := t.fuelBook.touch (fuelBookOf s.fu) }
  | .shrink => { t with shrink := t.shrink.touch (shrinkOf s.fu) }
  | .interval => { t with interval := t.interval.touch s.bu.interval }
  | .rate => { t with rate := t.rate.touch s.bu.rate }
  | .slot i => { t with slots := onSlots t.slots s.bu.slots i Rec.touch }
  | .journal => { t with journal := t.journal.touch s.bu.journal }
  | .postingNumber => { t with postingNumber := t.postingNumber.touch s.bu.postingNumber }
  | .clockFloor => { t with clockFloor := t.clockFloor.touch s.pt.floor }

/-- A record's write ends. -/
def Store.written (t : Store) (s : State) (r : RecordId) : Store :=
  match r with
  | .fuelBook => { t with fuelBook := t.fuelBook.written (fuelBookOf s.fu) }
  | .shrink => { t with shrink := t.shrink.written (shrinkOf s.fu) }
  | .interval => { t with interval := t.interval.written s.bu.interval }
  | .rate => { t with rate := t.rate.written s.bu.rate }
  | .slot i => { t with slots := onSlots t.slots s.bu.slots i Rec.written }
  | .journal => { t with journal := t.journal.written s.bu.journal }
  | .postingNumber => { t with postingNumber := t.postingNumber.written s.bu.postingNumber }
  | .clockFloor => { t with clockFloor := t.clockFloor.written s.pt.floor }

/-- Every write in progress completed, before a RESET or a RESTART starts the part (R177). -/
def Store.finish (t : Store) (s : State) : Store :=
  { fuelBook := t.fuelBook.finish (fuelBookOf s.fu)
    shrink := t.shrink.finish (shrinkOf s.fu)
    interval := t.interval.finish s.bu.interval
    rate := t.rate.finish s.bu.rate
    slots := t.slots.mapIdx fun i r => r.finish (s.bu.slots.getD i .free)
    journal := t.journal.finish s.bu.journal
    postingNumber := t.postingNumber.finish s.bu.postingNumber
    clockFloor := t.clockFloor.finish s.pt.floor }

/-- Every write in progress cut off by loss of power (R177). -/
def Store.cut (t : Store) : Store :=
  { fuelBook := t.fuelBook.cut, shrink := t.shrink.cut, interval := t.interval.cut, rate := t.rate.cut,
    slots := t.slots.map Rec.cut, journal := t.journal.cut, postingNumber := t.postingNumber.cut,
    clockFloor := t.clockFloor.cut }

/-- Some record fails its check (R181). -/
def Store.anyDamaged (t : Store) : Bool :=
  t.fuelBook.damaged || t.shrink.damaged || t.interval.damaged || t.rate.damaged || t.slots.any Rec.damaged ||
  t.journal.damaged || t.postingNumber.damaged || t.clockFloor.damaged

/-- The journal handed to the BU: emptied with a posting number that is not good (Table 10-4). -/
def Store.readJournal (t : Store) : List JournalEntry :=
  match t.postingNumber.stored with
  | .good _ => t.journal.read []
  | .absent | .damaged => []

/-- An account slot handed to the BU: free, with the reopened mark when its record is damaged (Table 10-4). -/
def readSlot (r : Rec Slot) : Slot := r.read { Slot.free with reopened := r.damaged }

/-- The interval handed to the BU, if its record is good (Table 10-4). -/
def Store.readInterval (t : Store) : Option Interval :=
  match t.interval.stored with
  | .good i => some i
  | .absent | .damaged => none

/-- The SR's act on what reaches it. -/
def srHandle (m : SrMsg) (s : State) : Act Store :=
  match m with
  | .touch r => quiet (s.store.touch s r)
  | .written r => quiet (s.store.written s r)

end Sys2Proof.Machine
end

