-- ==== Sys2Proof/Machine/Settle.lean ====
section
/-! DEFINITION. The units joined: one report taken by its unit, and the reports worked off until none is left. -/

namespace Sys2Proof.Machine

/-- One report is taken by the unit it names, which alone changes. -/
def deliver (r : Report) (s : State) : Act State :=
  match r with
  | .pcu m => ({ s with pcu := (pcuHandle m s).1 }, (pcuHandle m s).2)
  | .fli m => ({ s with fli := (fliHandle m s).1 }, (fliHandle m s).2)
  | .pt m => ({ s with pt := (ptHandle m s).1 }, (ptHandle m s).2)
  | .du m => ({ s with du := (duHandle m s).1 }, (duHandle m s).2)
  | .cc m => ({ s with cc := (ccHandle m s).1 }, (ccHandle m s).2)
  | .sc m => ({ s with sc := (scHandle m s).1 }, (scHandle m s).2)
  | .fu m => ({ s with fu := (fuHandle m s).1 }, (fuHandle m s).2)
  | .bu m => ({ s with bu := (buHandle m s).1 }, (buHandle m s).2)
  | .lc m => ({ s with lc := (lcHandle m s).1 }, (lcHandle m s).2)
  | .sr m => ({ s with store := (srHandle m s).1 }, (srHandle m s).2)

/-- Reports are worked off, at most `n` of them; those a report leads to come before those already waiting (log 3). -/
def settle : (n : Nat) → (agenda : List Report) → (s : State) → State
  | 0, _, s => s
  | _ + 1, [], s => s
  | n + 1, r :: rest, s => settle n ((deliver r s).2 ++ rest) (deliver r s).1

/-- More reports than any command leads to (log 3). -/
def settleLimit : Nat := 18446744073709551616

/-- Reports handed to their units and worked off. -/
def State.take (s : State) (rs : List Report) : State := settle settleLimit rs s

/-- The part has power and a configuration: it is inside a start or running (R176, R178). -/
def State.isUp (s : State) : Bool :=
  match s.phase with
  | .starting _ | .running => true
  | .off | .unusable => false

/-- What reaches the part is taken while it is up; a part without power or usable image takes nothing (R178). -/
def State.run (s : State) (rs : List Report) : State := if s.isUp then s.take rs else s

/-- The end of a received frame of a kind (log 14). -/
def frameOf (k : Kind) (h : Header) (payload : List Byte) : Report :=
  .lc (.frame h (BitVec.ofNat 8 k.code) payload)

/-- The end of a received TOOL COMMAND of a sub-kind (Table 9-12). -/
def toolOf (k : SubKind) (h : Header) (tag : Byte) (params : List Byte) : Report :=
  frameOf .toolCommand h (k.byte :: tag :: params)

end Sys2Proof.Machine
end

