-- ==== Sys2Proof/Machine/BillingCommands.lean ====
section
/-! DEFINITION. The meanings of the commands of costing and billing (R142 to R161). -/

namespace Sys2Proof.Machine

/-- A received COST (R146). -/
def execCostReceived (h : Header) (payload : List Byte) (s : State) : Host.Outcome State Fault Refusal :=
  .next (s.run [frameOf .cost h payload])

/-- The tool command STATEMENT CLOSE (R156, R171). -/
def execStatementClose (h : Header) (tag : Byte) (params : List Byte) (s : State) :
    Host.Outcome State Fault Refusal :=
  .next (s.run [toolOf .statementClose h tag params])

/-- The tool command ACCOUNT QUERY (R158, R171). -/
def execAccountQuery (h : Header) (tag : Byte) (params : List Byte) (s : State) : Host.Outcome State Fault Refusal :=
  .next (s.run [toolOf .accountQuery h tag params])

/-- The tool command STATEMENT QUERY (R159, R171). -/
def execStatementQuery (h : Header) (tag : Byte) (params : List Byte) (s : State) :
    Host.Outcome State Fault Refusal :=
  .next (s.run [toolOf .statementQuery h tag params])

/-- The tool command JOURNAL QUERY (R160, R171). -/
def execJournalQuery (h : Header) (tag : Byte) (params : List Byte) (s : State) : Host.Outcome State Fault Refusal :=
  .next (s.run [toolOf .journalQuery h tag params])

end Sys2Proof.Machine
end

