-- ==== Sys2Proof/Machine/ChangeoverCommands.lean ====
section
/-! DEFINITION. The meanings of the commands of supply changeover (R61 to R87). -/

namespace Sys2Proof.Machine

/-- The tool command HANDOVER REQUEST (R65, R171). -/
def execHandoverRequest (h : Header) (tag : Byte) (params : List Byte) (s : State) :
    Host.Outcome State Fault Refusal :=
  .next (s.run [toolOf .handoverRequest h tag params])

/-- The tool command HANDOVER ABORT (R85, R171). -/
def execHandoverAbort (h : Header) (tag : Byte) (params : List Byte) (s : State) : Host.Outcome State Fault Refusal :=
  .next (s.run [toolOf .handoverAbort h tag params])

/-- A received CALL (R66, R67). -/
def execCallReceived (h : Header) (payload : List Byte) (s : State) : Host.Outcome State Fault Refusal :=
  .next (s.run [frameOf .call h payload])

/-- A received OFFER (R69). -/
def execOfferReceived (h : Header) (payload : List Byte) (s : State) : Host.Outcome State Fault Refusal :=
  .next (s.run [frameOf .offer h payload])

/-- A received PICK (R68, R72). -/
def execPickReceived (h : Header) (payload : List Byte) (s : State) : Host.Outcome State Fault Refusal :=
  .next (s.run [frameOf .pick h payload])

/-- A received READY (R62, R73, R77). -/
def execReadyReceived (h : Header) (payload : List Byte) (s : State) : Host.Outcome State Fault Refusal :=
  .next (s.run [frameOf .ready h payload])

/-- A received STEP (R62, R72 to R78). -/
def execStepReceived (h : Header) (payload : List Byte) (s : State) : Host.Outcome State Fault Refusal :=
  .next (s.run [frameOf .step h payload])

/-- A received END (R62, R76). -/
def execEndReceived (h : Header) (payload : List Byte) (s : State) : Host.Outcome State Fault Refusal :=
  .next (s.run [frameOf .ending h payload])

/-- A received ABORT (R62, R82). -/
def execAbortReceived (h : Header) (payload : List Byte) (s : State) : Host.Outcome State Fault Refusal :=
  .next (s.run [frameOf .abort h payload])

/-- A received HOLD (R62, R80). -/
def execHoldReceived (h : Header) (payload : List Byte) (s : State) : Host.Outcome State Fault Refusal :=
  .next (s.run [frameOf .hold h payload])

/-- The offer window expires (R70, R71). -/
def execOfferWindowExpiry (s : State) : Host.Outcome State Fault Refusal :=
  .next (s.run [.cc .offerWindow])

/-- The offer timer expires (R68). -/
def execOfferTimerExpiry (s : State) : Host.Outcome State Fault Refusal :=
  .next (s.run [.cc .offerTimer])

/-- The retry wait expires (R71). -/
def execRetryWaitExpiry (s : State) : Host.Outcome State Fault Refusal :=
  .next (s.run [.cc .retryWait])

/-- The prepare limit expires (R71). -/
def execPrepareLimitExpiry (s : State) : Host.Outcome State Fault Refusal :=
  .next (s.run [.cc .prepLimit])

/-- The prepare timeout expires (R72). -/
def execPrepareTimeoutExpiry (s : State) : Host.Outcome State Fault Refusal :=
  .next (s.run [.cc .prepTimeout])

/-- The gap limit expires (R77, R78). -/
def execGapLimitExpiry (s : State) : Host.Outcome State Fault Refusal :=
  .next (s.run [.cc .gapLimit])

/-- The end wait expires (R76). -/
def execEndWaitExpiry (s : State) : Host.Outcome State Fault Refusal :=
  .next (s.run [.cc .endWait])

end Sys2Proof.Machine
end

