-- ==== Sys2Proof/Machine/DispatchCommands.lean ====
section
/-! DEFINITION. The meanings of the commands of set dispatch (R38 to R60). -/

namespace Sys2Proof.Machine

/-- The start timer expires (R40). -/
def execStartTimerExpiry (s : State) : Host.Outcome State Fault Refusal :=
  .next (s.run [.du .startTimer])

/-- The cooldown timer expires (R44). -/
def execCooldownExpiry (s : State) : Host.Outcome State Fault Refusal :=
  .next (s.run [.du .cooldown])

/-- The stop repeat timer expires (R44). -/
def execStopRepeatExpiry (s : State) : Host.Outcome State Fault Refusal :=
  .next (s.run [.du .stopRepeat])

/-- A second of the ramp (R47). -/
def execRampSecond (s : State) : Host.Outcome State Fault Refusal :=
  .next (s.run [.du .rampSecond])

/-- The ramp timer expires (R47). -/
def execRampTimerExpiry (s : State) : Host.Outcome State Fault Refusal :=
  .next (s.run [.du .rampTimer])

/-- The join timer expires (R49). -/
def execJoinTimerExpiry (s : State) : Host.Outcome State Fault Refusal :=
  .next (s.run [.du .joinTimer])

/-- The start dwell timer expires (R52). -/
def execStartDwellExpiry (s : State) : Host.Outcome State Fault Refusal :=
  .next (s.run [.du .startDwell])

/-- A received START INTENT (R53). -/
def execStartIntentReceived (h : Header) (payload : List Byte) (s : State) : Host.Outcome State Fault Refusal :=
  .next (s.run [frameOf .startIntent h payload])

/-- The stop dwell timer expires (R54, R55). -/
def execStopDwellExpiry (s : State) : Host.Outcome State Fault Refusal :=
  .next (s.run [.du .stopDwell])

/-- A received STOP INTENT (R55). -/
def execStopIntentReceived (h : Header) (payload : List Byte) (s : State) : Host.Outcome State Fault Refusal :=
  .next (s.run [frameOf .stopIntent h payload])

/-- The intent hold ends (R55). -/
def execIntentHoldExpiry (s : State) : Host.Outcome State Fault Refusal :=
  .next (s.run [.du .intentHold])

/-- The dead-bus timer expires (R56). -/
def execDeadbusTimerExpiry (s : State) : Host.Outcome State Fault Refusal :=
  .next (s.run [.du .deadBus])

/-- The escalation timer expires (R56). -/
def execEscalationExpiry (s : State) : Host.Outcome State Fault Refusal :=
  .next (s.run [.du .escalation])

/-- A received DEADBUS CLAIM (R56 to R58). -/
def execDeadbusClaimReceived (h : Header) (payload : List Byte) (s : State) : Host.Outcome State Fault Refusal :=
  .next (s.run [frameOf .deadbusClaim h payload])

/-- The claim hold ends (R57). -/
def execClaimHoldExpiry (s : State) : Host.Outcome State Fault Refusal :=
  .next (s.run [.du .claimHold])

/-- The wait after a lost claim ends (R58). -/
def execClaimWaitExpiry (s : State) : Host.Outcome State Fault Refusal :=
  .next (s.run [.du .claimWait])

end Sys2Proof.Machine
end

