-- ==== Sys2Proof/Machine/FieldCommands.lean ====
section
/-! DEFINITION. The meanings of the commands of pulse inputs, contact inputs and command outputs (R1 to R13). -/

namespace Sys2Proof.Machine

/-- A pulse at a channel, inactive for `gap` and active for `active` hundredths of a millisecond (R1 to R3, R8). -/
def execPulseAccepted (c : Channel) (gap active : Nat) (s : State) : Host.Outcome State Fault Refusal :=
  .next (s.run [.pcu (.pulse c gap active)])

/-- A channel's window expires (R4 to R7). -/
def execWindowExpiry (c : Channel) (s : State) : Host.Outcome State Fault Refusal :=
  .next (s.run [.pcu (.window c)])

/-- A level has held at a contact input for `held` milliseconds (R9). -/
def execInputChange (i : Input) (level : Bool) (held : Nat) (s : State) : Host.Outcome State Fault Refusal :=
  .next (s.run [.fli (.level i level held)])

/-- A command pulse ends (R10). -/
def execPulseEnd (d : Device) (s : State) : Host.Outcome State Fault Refusal :=
  .next (s.run [.fli (.pulseEnd d)])

/-- A confirm limit expires (R11 to R13). -/
def execConfirmLimitExpiry (d : Device) (s : State) : Host.Outcome State Fault Refusal :=
  .next (s.run [.fli (.limit d)])

end Sys2Proof.Machine
end

