-- ==== Sys2Proof/Machine/FuelCommands.lean ====
section
/-! DEFINITION. The meanings of the commands of fuel custody and deliveries (R107 to R141). -/

namespace Sys2Proof.Machine

/-- The reconciliation timer expires (R120). -/
def execReconciliationTimerExpiry (s : State) : Host.Outcome State Fault Refusal :=
  .next (s.run [.fu .reconTimer])

/-- The tool command RECONCILE (R125, R171). -/
def execReconcile (h : Header) (tag : Byte) (params : List Byte) (s : State) : Host.Outcome State Fault Refusal :=
  .next (s.run [toolOf .reconcile h tag params])

/-- The tool command TANK QUERY (R126, R171). -/
def execTankQuery (h : Header) (tag : Byte) (params : List Byte) (s : State) : Host.Outcome State Fault Refusal :=
  .next (s.run [toolOf .tankQuery h tag params])

/-- A received DELIVERY OPEN (R128, R129). -/
def execDeliveryOpen (h : Header) (payload : List Byte) (s : State) : Host.Outcome State Fault Refusal :=
  .next (s.run [frameOf .deliveryOpen h payload])

/-- A received DELIVERY CLOSE (R128, R130). -/
def execDeliveryClose (h : Header) (payload : List Byte) (s : State) : Host.Outcome State Fault Refusal :=
  .next (s.run [frameOf .deliveryClose h payload])

/-- The open-delivery record's age timer expires (R130). -/
def execDeliveryRecordExpiry (s : State) : Host.Outcome State Fault Refusal :=
  .next (s.run [.fu .recordExpiry])

/-- The claim repeat timer expires (R132). -/
def execClaimRepeatExpiry (s : State) : Host.Outcome State Fault Refusal :=
  .next (s.run [.fu .claimRepeat])

/-- A received VISIT (R128, R133, R134). -/
def execVisit (h : Header) (payload : List Byte) (s : State) : Host.Outcome State Fault Refusal :=
  .next (s.run [frameOf .visit h payload])

/-- A received VISIT END (R128, R139). -/
def execVisitEnd (h : Header) (payload : List Byte) (s : State) : Host.Outcome State Fault Refusal :=
  .next (s.run [frameOf .visitEnd h payload])

/-- The flow stall timer expires (R136, R138). -/
def execFlowStallExpiry (s : State) : Host.Outcome State Fault Refusal :=
  .next (s.run [.fu .flowStall])

/-- The pause timer expires (R137, R139). -/
def execPauseTimerExpiry (s : State) : Host.Outcome State Fault Refusal :=
  .next (s.run [.fu .pauseTimer])

end Sys2Proof.Machine
end

