-- ==== Sys2Proof/Machine/LineCommands.lean ====
section
/-! DEFINITION. The meanings of the commands of the site line (R162 to R175). -/

namespace Sys2Proof.Machine

/-- A TOOL COMMAND of a sub-kind outside Table 9-5 (R171, log 44). -/
def execUnknownToolCommand (h : Header) (subKind tag : Byte) (params : List Byte) (s : State) :
    Host.Outcome State Fault Refusal :=
  .next (s.run [frameOf .toolCommand h (subKind :: tag :: params)])

/-- The tool command RESTART (R171, R173). -/
def execRestart (h : Header) (tag : Byte) (params : List Byte) (s : State) : Host.Outcome State Fault Refusal :=
  .next (s.run [toolOf .restart h tag params])

/-- A frame ends at an idle gap, given by the bits on the line from its first start bit: those of the character it begins
with, and those that follow (R162 to R166, log 14). -/
def execFrameDiscarded (first following : List Bool) (s : State) : Host.Outcome State Fault Refusal :=
  .next (s.run [.lc (.raw (first ++ following))])

/-- The access wait completes (R169). -/
def execAccessWaitComplete (s : State) : Host.Outcome State Fault Refusal :=
  .next (s.run [.lc .accessDone])

/-- Every character has been read back (R169). -/
def execFrameSent (s : State) : Host.Outcome State Fault Refusal :=
  .next (s.run [.lc .sent])

/-- The character at a place of the frame under transmission is read back as these bits: a mismatch ends the attempt
(R162, R169, R170).  Written bare, as its row is, it is the start code of which nothing is read back (log 14). -/
def execCollision (s : State) (place : Nat := 0) (readback : List Bool := []) : Host.Outcome State Fault Refusal :=
  .next (s.run [.lc (.collision place readback)])

/-- The backoff ends (R170). -/
def execBackoffExpiry (s : State) : Host.Outcome State Fault Refusal :=
  .next (s.run [.lc .backoffEnd])

/-- A start bit after an idle gap (R163, R169). -/
def execLineStartBit (s : State) : Host.Outcome State Fault Refusal :=
  .next (s.run [.lc .startBit])

end Sys2Proof.Machine
end

