-- ==== Sys2Proof/Machine/PeerCommands.lean ====
section
/-! DEFINITION. The meanings of the commands of the peer view and the site clock (R20 to R35). -/

namespace Sys2Proof.Machine

/-- The heartbeat timer expires (R21). -/
def execHeartbeatExpiry (s : State) : Host.Outcome State Fault Refusal :=
  .next (s.run [.pt .heartbeat])

/-- A received STATE (R23 to R26, R31, R32, R36, R83). -/
def execStateReceived (h : Header) (payload : List Byte) (s : State) : Host.Outcome State Fault Refusal :=
  .next (s.run [frameOf .state h payload])

/-- A peer's age timer expires (R25). -/
def execPeerAgeExpiry (station : Nat) (s : State) : Host.Outcome State Fault Refusal :=
  .next (s.run [.pt (.age station)])

/-- A second of run hours (R20). -/
def execRunSecond (s : State) : Host.Outcome State Fault Refusal :=
  .next (s.run [.pt .runSecond])

/-- The clock's second timer completes a second (R30). -/
def execSecondTimerExpiry (s : State) : Host.Outcome State Fault Refusal :=
  .next (s.run [.pt .second])

/-- The tool command TIME SET (R33, R171). -/
def execTimeSet (h : Header) (tag : Byte) (params : List Byte) (s : State) : Host.Outcome State Fault Refusal :=
  .next (s.run [toolOf .timeSet h tag params])

end Sys2Proof.Machine
end

