-- ==== Sys2Proof/Machine/SheddingCommands.lean ====
section
/-! DEFINITION. The meanings of the commands of feeder shedding and restoration (R88 to R106). -/

namespace Sys2Proof.Machine

/-- The overload confirm window expires (R95). -/
def execConfirmWindowExpiry (s : State) : Host.Outcome State Fault Refusal :=
  .next (s.run [.sc .window])

/-- The settle hold ends (R95, R97). -/
def execSettleHoldExpiry (s : State) : Host.Outcome State Fault Refusal :=
  .next (s.run [.sc .settle])

/-- The restore spacing timer expires (R101 to R103). -/
def execRestoreSpacingExpiry (s : State) : Host.Outcome State Fault Refusal :=
  .next (s.run [.sc .spacing])

/-- The SC's one-second timer expires (R94, R145). -/
def execScSecondTimer (s : State) : Host.Outcome State Fault Refusal :=
  .next (s.run [.sc .second])

end Sys2Proof.Machine
end

