-- ==== Sys2Proof/Machine/Image.lean ====
section
/-! DEFINITION. The configuration image (Table 9-14, R178, R179): its check, its fields and their clamping. -/

namespace Sys2Proof.Machine

/-- A field as taken, with the mark that it had to be clamped. -/
abbrev Loaded (α : Type) := α × Bool

/-- A field clamped to the nearest limit of its range (R179). -/
def ranged (lo hi n : Nat) : Loaded Nat := (clampTo lo hi n, clampTo lo hi n != n)

/-- A field taken as a value computed from it. -/
def taken (n v : Nat) : Loaded Nat := (v, v != n)

/-- The largest listed value at or below `n`, the first one when all are above; the list rises (Table 10-2). -/
def listedBelow : List Nat → Nat → Nat
  | [], n => n
  | [a], _ => a
  | a :: b :: l, n => if n < b then a else listedBelow (b :: l) n

def windowLengths : List Nat := [1, 2, 5, 10, 30, 60]

def intervalLengths : List Nat := [1, 2, 3, 4, 5, 6, 10, 12, 15]

/-- The image can be used: 512 bytes, a good check, a station number 1 to 27 (R178). -/
def imageUsable (p : List Byte) : Bool :=
  decide (p.length = 512) && decide ((crc (p.take 510)).toNat = fieldAt p 510 2) &&
  decide (1 ≤ fieldAt p 0 1) && decide (fieldAt p 0 1 ≤ 27)

/-- The scaling of the channel at place `i` of the image (Tables 9-14 and 10-2). -/
def loadChan (p : List Byte) (i : Nat) : Loaded ChanCfg :=
  let o := 13 + 6 * i
  let prescale := ranged 1 64 (fieldAt p o 1)
  let weight := ranged 1 1000 (fieldAt p (o + 1) 2)
  let window := taken (fieldAt p (o + 3) 1) (listedBelow windowLengths (fieldAt p (o + 3) 1))
  let width := ranged 5 500 (fieldAt p (o + 4) 2)
  (⟨prescale.1, weight.1, window.1, width.1⟩, prescale.2 || weight.2 || window.2 || width.2)

/-- The probe map: each frequency clamped, equal ones set apart by 1 Hz (R7). -/
def loadProbe (fE fF : Nat) : Loaded (Nat × Nat) :=
  let e := ranged 10 10000 fE
  let f := ranged 10 10000 fF
  if e.1 = f.1 then ((e.1, if f.1 = 10000 then f.1 - 1 else f.1 + 1), true)
  else ((e.1, f.1), e.2 || f.2)

/-- The thresholds LOW and CRITICAL (R118). -/
def loadThresholds (low critical : Nat) : Loaded (Nat × Nat) :=
  let l := ranged 20 240 low
  let c := ranged 5 60 critical
  let c' := min c.1 (l.1 - 5)
  ((l.1, c'), l.2 || c.2 || c' != c.1)

/-- A class code of the configuration (Table 9-3). -/
def classOfCode? : Nat → Option FeederClass
  | 1 => some .showClass | 2 => some .vendor | 3 => some .amenity | 4 => some .protectedClass
  | _ => none

/-- The class order, or the default one (R89). -/
def loadOrder (a b c : Nat) : Loaded ClassOrder :=
  match a, b, c with
  | 1, 2, 3 => (⟨.showClass, .vendor, .amenity⟩, false)
  | 1, 3, 2 => (⟨.showClass, .amenity, .vendor⟩, false)
  | 2, 1, 3 => (⟨.vendor, .showClass, .amenity⟩, false)
  | 2, 3, 1 => (⟨.vendor, .amenity, .showClass⟩, false)
  | 3, 1, 2 => (⟨.amenity, .showClass, .vendor⟩, false)
  | 3, 2, 1 => (⟨.amenity, .vendor, .showClass⟩, false)
  | _, _, _ => (⟨.amenity, .vendor, .showClass⟩, true)

/-- The class of a feeder: of a fitted one, none or undefined is PROTECTED (Table 10-2, log 34). -/
def loadClass (fitted : Bool) (code : Nat) : Loaded FeederClass :=
  match classOfCode? code with
  | some k => (k, false)
  | none => (.protectedClass, fitted)

/-- A tenant code (Table 10-2). -/
def loadTenant (n : Nat) : Loaded Nat := ranged 0 4095 n

/-- The standing rate per second in 10⁻⁵ milli (R149). -/
def standingPerSecond (h : Nat) : Nat := roundDiv (h * 250) 9

/-- The tariff band at place `i` of the image; only a band in use is clamped (R148, R149, log 34). -/
def loadBand (p : List Byte) (i : Nat) : Loaded Band :=
  let o := 96 + 8 * i
  let start := fieldAt p o 2
  if start = 0xFFFF then (.blank, false)
  else
    let st := ranged 0 1439 start
    let m := ranged 0 999 (fieldAt p (o + 2) 2)
    let h := fieldAt p (o + 6) 2
    (⟨true, st.1, m.1, fieldAt p (o + 4) 2, h, standingPerSecond h⟩, st.2 || m.2)

/-- The bands, with the default one when none is in use (R148). -/
def loadBands (p : List Byte) : Loaded (Quad Band) :=
  let b1 := loadBand p 0
  let b2 := loadBand p 1
  let b3 := loadBand p 2
  let b4 := loadBand p 3
  if b1.1.inUse || b2.1.inUse || b3.1.inUse || b4.1.inUse then
    (⟨b1.1, b2.1, b3.1, b4.1⟩, b1.2 || b2.2 || b3.2 || b4.2)
  else (⟨⟨true, 0, 100, 0, 0, 0⟩, b2.1, b3.1, b4.1⟩, true)

/-- A value for each feeder or channel with the marks joined. -/
def loadQuad {α : Type} (g : FeederId → Loaded α) : Loaded (Quad α) :=
  (Quad.ofFn fun n => (g n).1, (g .f1).2 || (g .f2).2 || (g .f3).2 || (g .f4).2)

/-- The aux pattern table: eight rows of six bits (Table 9-14). -/
def loadAux (p : List Byte) : List (BitVec 6) := ((p.drop 128).take 8).map fun b => b.setWidth 6

/-- The configuration of a usable image, and CONFIG CLAMPED (Table 9-14, R179). -/
def loadConfig (p : List Byte) : Loaded Cfg :=
  let flags := fieldAt p 2 1
  let fitted := Quad.ofFn fun n => flags.testBit (3 + n.index)
  let group := ranged 1 15 (fieldAt p 1 1)
  let heartbeat := taken (fieldAt p 3 2) (clampTo 500 2000 (fieldAt p 3 2) / 100 * 100)
  let rating := ranged 10 2000 (fieldAt p 5 2)
  let capacity := ranged 100 50000 (fieldAt p 7 2)
  let probe := loadProbe (fieldAt p 9 2) (fieldAt p 11 2)
  let se := loadChan p 0
  let bf := loadChan p 1
  let ff := loadChan p 2
  let lp := loadChan p 3
  let f := loadQuad fun n => loadChan p (3 + n.index)
  let startThr := ranged 50 95 (fieldAt p 61 1)
  let stopThr := ranged 20 70 (fieldAt p 62 1)
  let startDwell := ranged 5 120 (fieldAt p 63 1)
  let stopDwell := ranged 30 900 (fieldAt p 64 2)
  let cooldown := ranged 60 900 (fieldAt p 66 2)
  let rampRate := ranged 1 20 (fieldAt p 68 1)
  let overload := ranged 90 110 (fieldAt p 69 1)
  let restore := ranged 60 90 (fieldAt p 70 1)
  let thr := loadThresholds (fieldAt p 71 1) (fieldAt p 72 1)
  let tolerance := ranged 0 2000 (fieldAt p 73 2)
  let claimThr := ranged 0 999 (fieldAt p 75 2)
  let fillLimit := ranged 80 98 (fieldAt p 77 1)
  let intervalLen := taken (fieldAt p 80 1) (listedBelow intervalLengths (fieldAt p 80 1))
  let order := loadOrder (fieldAt p 81 1) (fieldAt p 82 1) (fieldAt p 83 1)
  let tenant := loadQuad fun n => loadTenant (fieldAt p (82 + 2 * n.index) 2)
  let cls := loadQuad fun n => loadClass (fitted.get n) (fieldAt p (91 + n.index) 1)
  let bands := loadBands p
  ({ station := fieldAt p 0 1, group := group.1,
     setFitted := flags.testBit 0, tankFitted := flags.testBit 1, closedCap := flags.testBit 2, fitted := fitted,
     heartbeat := heartbeat.1, rating := rating.1, capacity := capacity.1, fE := probe.1.1, fF := probe.1.2,
     se := se.1, bf := bf.1, ff := ff.1, lp := lp.1, f := f.1,
     startThr := startThr.1, stopThr := stopThr.1, startDwell := startDwell.1, stopDwell := stopDwell.1,
     cooldown := cooldown.1, rampRate := rampRate.1, overload := overload.1, restore := restore.1,
     low := thr.1.1, critical := thr.1.2, tolerance := tolerance.1, claimThr := claimThr.1,
     fillLimit := fillLimit.1, standby := fieldAt p 78 2, intervalLen := intervalLen.1, order := order.1,
     tenant := tenant.1, cls := cls.1, bands := bands.1, aux := loadAux p },
   group.2 || heartbeat.2 || rating.2 || capacity.2 || probe.2 || se.2 || bf.2 || ff.2 || lp.2 || f.2 ||
   startThr.2 || stopThr.2 || startDwell.2 || stopDwell.2 || cooldown.2 || rampRate.2 || overload.2 || restore.2 ||
   thr.2 || tolerance.2 || claimThr.2 || fillLimit.2 || intervalLen.2 || order.2 || tenant.2 || cls.2 || bands.2)

end Sys2Proof.Machine
end

