-- ==== Sys2Proof/Machine/Start.lean ====
section
/-! DEFINITION. The starts (chapter 10, R176 to R178): the ten steps of the start order, the events inside a start, the end of start-up, loss of power. -/

namespace Sys2Proof.Machine

/-! ### The steps of Table 10-1 -/

/-- The state a start begins from: every unit at its start value, the store and the waiting commands kept (log 6). -/
def State.fresh (s : State) (p : Phase) : State :=
  { State.reset with
    phase := p, pending := s.pending, store := s.store, cfg := s.cfg
    lc := { Lc.start with answerSeq := s.lc.answerSeq, draws := s.lc.draws } }

/-- Step 2 (R178, R179). -/
def stepConfig (s : State) (image : List Byte) : State :=
  if imageUsable image then
    let c := loadConfig image
    { s with cfg := c.1, configClamped := c.2, lc := { s.lc with prng := Config.prngSeed c.1.station } }
  else { s with phase := .unusable }

/-- Step 3: the records are checked, and the PT holds the floor (R181, Table 2-5). -/
def stepRecords (s : State) : State :=
  let floor := s.store.clockFloor.read 0
  { s with retainedDamaged := s.store.anyDamaged, pt := { s.pt with floor := floor, clock := floor } }

/-- Step 4: the channels count (R8). -/
def stepChannels (s : State) : State := { s with pcu := .start }

/-- Step 5: the inputs are sampled (R9). -/
def stepSample (s : State) (l : Levels) : State :=
  { s with fli := { s.fli with inputs := sampleLevels s.cfg l } }

/-- Step 6: set and feeders rebuilt, the group figures taken from the own values alone (R45, R100, Table 2-2). -/
def stepRebuild (s : State) : State :=
  let d := duRebuild s
  let s₁ := { s with du := d.1, sc := scRebuild s }
  let s₂ := { s₁ with pt := { s₁.pt with figs := figuresOf s₁ [] } }
  s₂.take d.2

/-- The FU brought up from its records (R127, R117, R119).  With no tank fitted the records are neither read nor written,
and stand for a start that finds a tank again (the model's choice, log 56). -/
def fuBringUp (s : State) : Fu :=
  if s.cfg.tankFitted then
    let b := s.store.fuelBook.read ⟨[], 0, 0⟩
    let k := s.store.shrink.read ⟨0, Recon.none⟩
    let f : Fu := { Fu.start with
      lots := b.lots, overdraw := b.overdraw, heldPrice := b.heldPrice, shrinkValue := k.shrinkValue,
      recon := k.recon }
    let h := hoursOf f.book s.cfg.standby
    { f with hours := h, threshold := nextThreshold s.cfg.low s.cfg.critical .normal h }
  else .start

/-- The BU brought up: the interval found open is closed, the accounts are mapped, a new interval opens (R154, R155,
R161). -/
def buBringUp (s : State) : Act Bu :=
  let b : Bu := { Bu.start with
    rate := s.store.rate.read 0, slots := s.store.slots.map readSlot, journal := s.store.readJournal
    postingNumber := s.store.postingNumber.read 0 }
  let closed := match s.store.readInterval with
    | some i => startClose b s.cfg i s.pt.clock
    | none => quiet b
  (closed.andThen fun c => mapAccounts c s.cfg).andThen fun c =>
    ({ c with interval := openInvalid s.cfg s.pt.clock }, [.sr (.touch .interval)])

/-- Step 7. -/
def stepBooks (s : State) : State :=
  let s₁ := { s with fu := fuBringUp s }
  let b := buBringUp s₁
  { s₁ with bu := b.1 }.take b.2

/-- Step 8: the LC is enabled and the first STATE handed over (R174, R21). -/
def stepLine (s : State) : State :=
  { s with phase := .starting 8, lc := { s.lc with enabled := true } }.take [.pt .reportable]

/-- Step 9: the aux row of the CC's present state (R87). -/
def stepAux (s : State) : State := { s with phase := .starting 9 }.take [.fli (.auxRow s.cc.state)]

/-- Step `n` of the start order; step 10 sets ALERT, which is read off the state (R18). -/
def startStep (n : Nat) (inp : StartInputs) (s : State) : State :=
  match n with
  | 1 => s.fresh (.starting 1)
  | 2 => stepConfig s inp.image
  | 3 => stepRecords s
  | 4 => stepChannels s
  | 5 => stepSample s inp.levels
  | 6 => stepRebuild s
  | 7 => stepBooks s
  | 8 => stepLine s
  | 9 => stepAux s
  | _ => s

/-! ### Events inside a start (R177) -/

/-- The report an event inside a start makes; the PCU, the FLI and the LC take it as far as the start has come. -/
def eventReport : StartEvent → Report
  | .pulse c gap active => .pcu (.pulse c gap active)
  | .change i b held => .fli (.level i b held)
  | .frame h kind payload => .lc (.frame h kind payload)

/-- The events that fall after step `n`. -/
def eventsAfter (inp : StartInputs) (n : Nat) : List Report :=
  (inp.during.filter fun e => e.1 == n).map fun e => eventReport e.2

/-- The start has been abandoned before step `n`. -/
def abandonedBefore (inp : StartInputs) (n : Nat) : Bool :=
  match inp.abandonAfter with
  | some k => decide (k < n)
  | none => false

/-- Step `n` with the events after it; nothing once the image has been found unusable or the start abandoned. -/
def runStep (inp : StartInputs) (s : State) (n : Nat) : State :=
  if s.phase = .unusable ∨ abandonedBefore inp n then s
  else
    let t := startStep n inp s
    if t.phase = .unusable then t else { t with phase := .starting n }.take (eventsAfter inp n)

/-! ### The end of start-up (R8, R45, R100, R119, R176, R177) -/

/-- The running totals of the channels in use, handed over in one delivery (R8). -/
def totalsDelivered (s : State) : List Report :=
  ([Channel.se, .bf, .ff, .f .f1, .f .f2, .f .f3, .f .f4].filter s.cfg.channelInUse).flatMap fun c =>
    totalReports c (s.pcu.get c).total

/-- What happens at the end of start-up, in the model's order (log 7). -/
def endReports (s : State) : List Report :=
  totalsDelivered s ++ List.replicate s.fli.kept.length (.fli .reportKept) ++
  [.fu .endOfStart, .du .test, .sc .endOfStart]

/-- The end of start-up: the part runs. -/
def endOfStartUp (s : State) : State :=
  { s with phase := .running }.take (endReports s)

/-- The numbers of the steps. -/
def stepNumbers : List Nat := [1, 2, 3, 4, 5, 6, 7, 8, 9, 10]

/-- A start, begun whatever the part was doing: the ten steps, and the end of start-up when the tenth has ended (R176). -/
def startPart (inp : StartInputs) (s : State) : State :=
  let t := stepNumbers.foldl (runStep inp) (s.fresh (.starting 0))
  if t.phase = .starting 10 ∧ inp.abandonAfter.isNone then endOfStartUp t else t

/-! ### The kinds of start, and loss of power -/

/-- Loss of power: everything but the retained store is lost, a write in progress is cut off (R177). -/
def losePower (s : State) : State := { s.fresh .off with store := s.store.cut, cfg := .blank }

/-- RESET or RESTART: the writes in progress are completed, then a start (R177). -/
def restartPart (inp : StartInputs) (s : State) : State :=
  startPart inp { s with store := s.store.finish s }

end Sys2Proof.Machine
end

