-- ==== Sys2Proof/Machine/SupplyCommands.lean ====
section
/-! DEFINITION. The meanings of the supply, reset and store commands (R173, R176, R177, R180). -/

namespace Sys2Proof.Machine

/-- Power returns: the start order runs from step 1 (R176); a part still powered loses power first (log 8). -/
def execPowerOn (inp : StartInputs) (s : State) : Host.Outcome State Fault Refusal :=
  .next (startPart inp (if s.phase = .off then s else losePower s))

/-- RESET goes low and returns high: what runs is abandoned and a start begins at step 1 (R177). -/
def execResetInput (inp : StartInputs) (s : State) : Host.Outcome State Fault Refusal :=
  .next (if s.phase = .off then s else restartPart inp s)

/-- Loss of power (R177). -/
def execPowerFail (s : State) : Host.Outcome State Fault Refusal :=
  .next (losePower s)

/-- A record write ends (R180). -/
def execRetainedWriteComplete (r : RecordId) (s : State) : Host.Outcome State Fault Refusal :=
  .next (s.run [.sr (.written r)])

/-- The pending restart is handed to the SR, once its ANSWER has left the queue (R173). -/
def execRestartHandover (inp : StartInputs) (s : State) : Host.Outcome State Fault Refusal :=
  .next (if s.isUp ∧ s.lc.restart = .ready then restartPart inp s else s)

end Sys2Proof.Machine
end

