-- ==== Sys2Proof/Machine/Dispatch.lean ====
section
/-! DEFINITION. One arm per command: the meaning each command has. -/

namespace Sys2Proof.Machine

def exec (i : Instr) (s : State) : Host.Outcome State Fault Refusal :=
  match i with
  | .powerOn inp => Sys2Proof.Machine.execPowerOn inp s
  | .resetInput inp => Sys2Proof.Machine.execResetInput inp s
  | .powerFail => Sys2Proof.Machine.execPowerFail s
  | .pulseAccepted c gap active => Sys2Proof.Machine.execPulseAccepted c gap active s
  | .retainedWriteComplete r => Sys2Proof.Machine.execRetainedWriteComplete r s
  | .windowExpiry c => Sys2Proof.Machine.execWindowExpiry c s
  | .inputChange j level held => Sys2Proof.Machine.execInputChange j level held s
  | .pulseEnd d => Sys2Proof.Machine.execPulseEnd d s
  | .confirmLimitExpiry d => Sys2Proof.Machine.execConfirmLimitExpiry d s
  | .heartbeatExpiry => Sys2Proof.Machine.execHeartbeatExpiry s
  | .stateReceived h payload => Sys2Proof.Machine.execStateReceived h payload s
  | .peerAgeExpiry station => Sys2Proof.Machine.execPeerAgeExpiry station s
  | .runSecond => Sys2Proof.Machine.execRunSecond s
  | .secondTimerExpiry => Sys2Proof.Machine.execSecondTimerExpiry s
  | .timeSet h tag params => Sys2Proof.Machine.execTimeSet h tag params s
  | .startTimerExpiry => Sys2Proof.Machine.execStartTimerExpiry s
  | .cooldownExpiry => Sys2Proof.Machine.execCooldownExpiry s
  | .stopRepeatExpiry => Sys2Proof.Machine.execStopRepeatExpiry s
  | .rampSecond => Sys2Proof.Machine.execRampSecond s
  | .rampTimerExpiry => Sys2Proof.Machine.execRampTimerExpiry s
  | .joinTimerExpiry => Sys2Proof.Machine.execJoinTimerExpiry s
  | .startDwellExpiry => Sys2Proof.Machine.execStartDwellExpiry s
  | .startIntentReceived h payload => Sys2Proof.Machine.execStartIntentReceived h payload s
  | .stopDwellExpiry => Sys2Proof.Machine.execStopDwellExpiry s
  | .stopIntentReceived h payload => Sys2Proof.Machine.execStopIntentReceived h payload s
  | .intentHoldExpiry => Sys2Proof.Machine.execIntentHoldExpiry s
  | .deadbusTimerExpiry => Sys2Proof.Machine.execDeadbusTimerExpiry s
  | .escalationExpiry => Sys2Proof.Machine.execEscalationExpiry s
  | .deadbusClaimReceived h payload => Sys2Proof.Machine.execDeadbusClaimReceived h payload s
  | .claimHoldExpiry => Sys2Proof.Machine.execClaimHoldExpiry s
  | .claimWaitExpiry => Sys2Proof.Machine.execClaimWaitExpiry s
  | .handoverRequest h tag params => Sys2Proof.Machine.execHandoverRequest h tag params s
  | .handoverAbort h tag params => Sys2Proof.Machine.execHandoverAbort h tag params s
  | .callReceived h payload => Sys2Proof.Machine.execCallReceived h payload s
  | .offerReceived h payload => Sys2Proof.Machine.execOfferReceived h payload s
  | .pickReceived h payload => Sys2Proof.Machine.execPickReceived h payload s
  | .readyReceived h payload => Sys2Proof.Machine.execReadyReceived h payload s
  | .stepReceived h payload => Sys2Proof.Machine.execStepReceived h payload s
  | .endReceived h payload => Sys2Proof.Machine.execEndReceived h payload s
  | .abortReceived h payload => Sys2Proof.Machine.execAbortReceived h payload s
  | .holdReceived h payload => Sys2Proof.Machine.execHoldReceived h payload s
  | .offerWindowExpiry => Sys2Proof.Machine.execOfferWindowExpiry s
  | .offerTimerExpiry => Sys2Proof.Machine.execOfferTimerExpiry s
  | .retryWaitExpiry => Sys2Proof.Machine.execRetryWaitExpiry s
  | .prepareLimitExpiry => Sys2Proof.Machine.execPrepareLimitExpiry s
  | .prepareTimeoutExpiry => Sys2Proof.Machine.execPrepareTimeoutExpiry s
  | .gapLimitExpiry => Sys2Proof.Machine.execGapLimitExpiry s
  | .endWaitExpiry => Sys2Proof.Machine.execEndWaitExpiry s
  | .confirmWindowExpiry => Sys2Proof.Machine.execConfirmWindowExpiry s
  | .settleHoldExpiry => Sys2Proof.Machine.execSettleHoldExpiry s
  | .restoreSpacingExpiry => Sys2Proof.Machine.execRestoreSpacingExpiry s
  | .scSecondTimer => Sys2Proof.Machine.execScSecondTimer s
  | .reconciliationTimerExpiry => Sys2Proof.Machine.execReconciliationTimerExpiry s
  | .reconcile h tag params => Sys2Proof.Machine.execReconcile h tag params s
  | .tankQuery h tag params => Sys2Proof.Machine.execTankQuery h tag params s
  | .deliveryOpen h payload => Sys2Proof.Machine.execDeliveryOpen h payload s
  | .deliveryClose h payload => Sys2Proof.Machine.execDeliveryClose h payload s
  | .deliveryRecordExpiry => Sys2Proof.Machine.execDeliveryRecordExpiry s
  | .claimRepeatExpiry => Sys2Proof.Machine.execClaimRepeatExpiry s
  | .visit h payload => Sys2Proof.Machine.execVisit h payload s
  | .visitEnd h payload => Sys2Proof.Machine.execVisitEnd h payload s
  | .flowStallExpiry => Sys2Proof.Machine.execFlowStallExpiry s
  | .pauseTimerExpiry => Sys2Proof.Machine.execPauseTimerExpiry s
  | .costReceived h payload => Sys2Proof.Machine.execCostReceived h payload s
  | .statementClose h tag params => Sys2Proof.Machine.execStatementClose h tag params s
  | .accountQuery h tag params => Sys2Proof.Machine.execAccountQuery h tag params s
  | .statementQuery h tag params => Sys2Proof.Machine.execStatementQuery h tag params s
  | .journalQuery h tag params => Sys2Proof.Machine.execJournalQuery h tag params s
  | .unknownToolCommand h subKind tag params => Sys2Proof.Machine.execUnknownToolCommand h subKind tag params s
  | .restart h tag params => Sys2Proof.Machine.execRestart h tag params s
  | .restartHandover inp => Sys2Proof.Machine.execRestartHandover inp s
  | .frameDiscarded first following => Sys2Proof.Machine.execFrameDiscarded first following s
  | .accessWaitComplete => Sys2Proof.Machine.execAccessWaitComplete s
  | .frameSent => Sys2Proof.Machine.execFrameSent s
  | .collision place readback => Sys2Proof.Machine.execCollision s place readback
  | .backoffExpiry => Sys2Proof.Machine.execBackoffExpiry s
  | .lineStartBit => Sys2Proof.Machine.execLineStartBit s

end Sys2Proof.Machine
end

