-- ==== Sys2Proof/Safety.lean ====
section
/-! DEFINITION. The words the statements are made in: working reports off, hearing a frame, taking a tool command; and the invariants of the part. -/

namespace Sys2Proof

/-! ### Kinds of commands -/

/-- A command that starts the part or takes its power. -/
def Instr.startsOrStops : Instr → Bool
  | .powerOn _ | .resetInput _ | .restartHandover _ | .powerFail => true
  | _ => false

/-- Commands of the set, the changeover, the feeders and the line, which touch no quantity, book, peer entry or clock. -/
def Instr.controls : Instr → Bool
  | .pulseEnd _ | .confirmLimitExpiry _ | .heartbeatExpiry
  | .startTimerExpiry | .cooldownExpiry | .stopRepeatExpiry | .rampSecond | .rampTimerExpiry | .joinTimerExpiry
  | .startDwellExpiry | .startIntentReceived _ _ | .stopDwellExpiry | .stopIntentReceived _ _ | .intentHoldExpiry
  | .deadbusTimerExpiry | .escalationExpiry | .deadbusClaimReceived _ _ | .claimHoldExpiry | .claimWaitExpiry
  | .handoverRequest _ _ _ | .handoverAbort _ _ _ | .callReceived _ _ | .offerReceived _ _ | .pickReceived _ _
  | .readyReceived _ _ | .stepReceived _ _ | .endReceived _ _ | .abortReceived _ _ | .holdReceived _ _
  | .offerWindowExpiry | .offerTimerExpiry | .retryWaitExpiry | .prepareLimitExpiry | .prepareTimeoutExpiry
  | .gapLimitExpiry | .endWaitExpiry
  | .confirmWindowExpiry | .settleHoldExpiry | .restoreSpacingExpiry
  | .restart _ _ _ | .accessWaitComplete | .frameSent | .collision _ _ | .backoffExpiry | .lineStartBit => true
  | _ => false

/-- Commands of the tank, the deliveries and the accounts, which touch no channel, input, peer entry or clock. -/
def Instr.keepsBooks : Instr → Bool
  | .scSecondTimer | .reconciliationTimerExpiry | .reconcile _ _ _ | .tankQuery _ _ _ | .deliveryOpen _ _
  | .deliveryClose _ _ | .deliveryRecordExpiry | .claimRepeatExpiry | .visit _ _ | .visitEnd _ _ | .flowStallExpiry
  | .pauseTimerExpiry | .costReceived _ _ | .statementClose _ _ _ | .accountQuery _ _ _ | .statementQuery _ _ _
  | .journalQuery _ _ _ | .retainedWriteComplete _ => true
  | _ => false

end Sys2Proof

namespace Sys2Proof.Machine

/-! ### Working off, hearing, taking -/

/-- The reports a unit has handed over are worked off from the state it left, `k` reports having been taken before. -/
def State.handOn (s : State) (k : Nat) (rs : List Report) : State := settle (settleLimit - k) rs s

/-- The LC accepts a frame of another member (R165): it is enabled, the frame is no readback frame, group and to field
fit, the sender is not the own number. -/
def Accepts (s : State) (h : Header) : Prop :=
  s.isUp = true ∧ s.lc.enabled = true ∧ s.lc.rx.readsBack h.sender.toNat s.cfg.station = false ∧ addressed s h = true ∧
    h.sender.toNat ≠ s.cfg.station

/-- The sender is a station and the frame is for the own group alone (R166). -/
def FromStation (h : Header) : Prop := h.group ≠ 0 ∧ 1 ≤ h.sender.toNat ∧ h.sender.toNat ≤ 27

/-- The sender is a tool or a terminal. -/
def FromTool (h : Header) : Prop := 28 ≤ h.sender.toNat ∧ h.sender.toNat ≤ 31

/-- A tool command reaches the part and is permitted, no restart pending (R171). -/
def Commands (s : State) (h : Header) : Prop :=
  Accepts s h ∧ FromTool h ∧ h.dest.toNat = s.cfg.station ∧ s.lc.restart = .none

/-- The state once a received frame has ended: the receiver stands between frames, the head counts its wait anew. -/
def State.heard (s : State) : State := { s with lc := kick { s.lc with rx := Rx.between } s.cfg.station }

/-- The state with an answer given to a tool command (R172). -/
def State.answered (s : State) (ask : Ask) (r : Result) (data : List Byte) : State :=
  { s with lc := (giveAnswer s.lc s.cfg.station ask r data).1 }

/-- Who asks, by a tool command of a sub-kind. -/
def askOf (h : Header) (k : SubKind) (tag : Byte) : Ask := ⟨h.sender.toNat, k.byte, tag⟩

/-- A frame of the own group is handed to the LC: the state with it offered. -/
def State.offered (s : State) (f : TxFrame) : State := { s with lc := (offerFrame s.lc s.cfg.station f).1 }

/-- The peer table and the clock, as one value. -/
def Pt.kept (p : Pt) : List PeerEntry × Bool × Nat × Bool × Nat × Timer × Nat :=
  (p.entries, p.tableFull, p.clock, p.clockValid, p.floor, p.second, p.runSeconds)

/-- The peer table and the clock without its floor, as one value. -/
def Pt.view (p : Pt) : List PeerEntry × Bool × Nat × Bool × Timer × Nat :=
  (p.entries, p.tableFull, p.clock, p.clockValid, p.second, p.runSeconds)

/-- The command a received frame of a kind is, for the kinds the table has a row for. -/
def frameCommand (k : Kind) (h : Header) (p : List Byte) : Option Instr :=
  match k with
  | .state => some (.stateReceived h p)
  | .startIntent => some (.startIntentReceived h p)
  | .stopIntent => some (.stopIntentReceived h p)
  | .deadbusClaim => some (.deadbusClaimReceived h p)
  | .call => some (.callReceived h p)
  | .offer => some (.offerReceived h p)
  | .pick => some (.pickReceived h p)
  | .ready => some (.readyReceived h p)
  | .step => some (.stepReceived h p)
  | .ending => some (.endReceived h p)
  | .abort => some (.abortReceived h p)
  | .hold => some (.holdReceived h p)
  | .cost => some (.costReceived h p)
  | .deliveryOpen => some (.deliveryOpen h p)
  | .deliveryClose => some (.deliveryClose h p)
  | .visit => some (.visit h p)
  | .visitEnd => some (.visitEnd h p)
  | .fillClaim | .visitReply | .fillDone | .toolCommand | .answer => none

/-- The command a tool command of a sub-kind is. -/
def toolCommandOf (k : SubKind) (h : Header) (tag : Byte) (params : List Byte) : Instr :=
  match k with
  | .accountQuery => .accountQuery h tag params
  | .statementQuery => .statementQuery h tag params
  | .journalQuery => .journalQuery h tag params
  | .tankQuery => .tankQuery h tag params
  | .statementClose => .statementClose h tag params
  | .timeSet => .timeSet h tag params
  | .handoverRequest => .handoverRequest h tag params
  | .handoverAbort => .handoverAbort h tag params
  | .reconcile => .reconcile h tag params
  | .restart => .restart h tag params

/-- The reports of an entry to a handover state (R61, R87). -/
def enteringReports (before after : Handover) : List Report :=
  [.pt .ownChanged, .pt .reportable, .du .test, .sc (.handover before), .fli (.auxRow after)]

/-- The CC back in IDLE: no record, no timer (R61). -/
def Cc.idled (c : Cc) : Cc :=
  { c with state := .idle, call := none, inc := none, offerWindow := none, retryWait := none, offerTimer := none,
           prepTimeout := none, prepLimit := none, gapLimit := none, endWait := none }

/-- The DU in FAULT with a cause: ramp, join request, intents, claim and every timer ended, S at 0 (R42). -/
def Du.faulted (d : Du) (cause : FaultCause) : Du :=
  { d with
    state := .fault, cause := some cause, share := 0, tripIssued := false, startTimer := none, cooldown := none,
    ramp := none, stopRepeat := none, heldStart := none, join := none, joinTimer := none, claim := none,
    claimHold := none, rival := none, claimWait := none, startIntent := none, stopIntent := none, intentHold := none,
    recovery := d.recovery.afterFault, escalation := none }

/-- The DU in COOLING after a stop request, STOP handed over and to be repeated (R44). -/
def Du.stopping (d : Du) : Du :=
  { d with
    state := .cooling, join := none, joinTimer := none, claim := none, claimHold := none, rival := none,
    claimWait := none, startIntent := none, startTimer := none, ramp := none, share := 0, tripIssued := false,
    cooldown := none, stopRepeat := some 30000, stopIntent := if d.intentHold.isSome then d.stopIntent else none }

/-- The DU CRANKING after a start request with an origin, and a join request with it (R38, R49). -/
def Du.cranking (d : Du) (o : Origin) (live : Bool) : Du :=
  { d with
    state := .cranking, origin := some o, startTimer := some 120000, heldStart := none
    join := some (if live then .bySync else .byClaim) }

/-- The DU with a claim of a READY set sent (R57). -/
def Du.claiming (d : Du) (hours : Nat) : Du :=
  { d with
    join := some .byClaim, claim := some ⟨true, hours⟩, claimHold := some 500, rival := none, claimWait := none }

/-- The call record after a failed attempt (R71). -/
def CallRec.failed (r : CallRec) : CallRec :=
  { r with attempts := r.attempts + 1, incoming := none, mode := none, noted := false }

/-- A visit ended (R139): VALVE closed, FILL DONE to the terminal, reconciliation in 120 s. -/
def State.visitEnded (s : State) (f : Fu) (v : Visit) (c : EndCause) : State :=
  State.offered
    { s with
      fu := { f with visit := some { v with state := .ended c }, flowStall := none, pauseTimer := none,
                     reconTimer := some 120000 }
      fli := { s.fli with valve := false } }
    (terminalFrame .fillDone v.terminal (fillDonePayload f v c))

/-- The store when `k` units have been booked into the open interval one after the other, the first of them leaving
`first`: the write begins with it, and each further unit marks the record (R142, R180). -/
def Store.booked (t : Store) (first : Interval) (k : Nat) : Store :=
  { t with
    interval :=
      match k with
      | 0 => t.interval
      | 1 => t.interval.touch first
      | _ + 2 => { t.interval.touch first with again := true } }

/-- Pulses accepted one after the other at a channel: the counts completed, and the channel after them. -/
def Chan.acceptMany (g : ChanCfg) (windowed : Bool) : Nat → Chan → Nat × Chan
  | 0, x => (0, x)
  | n + 1, x =>
      let r := x.accept g windowed
      let y := Chan.acceptMany g windowed n r.1
      ((if r.2 then 1 else 0) + y.1, y.2)

/-! ### Invariants -/

/-- VALVE is open only with FILL KEY on and HIGH LEVEL off, as reported and at the contacts (R15, R135); it is closed
until the inputs are sampled. -/
def ValveSafe (s : State) : Prop :=
  s.fli.valve = true → s.fli.inputs.fillKey = true ∧ s.fli.inputs.highLevel = false ∧
    s.fli.contact .fillKey = true ∧ s.fli.contact .highLevel = false

/-- S is at most 1,250, and 0 outside ONBUS and RAMPDOWN (R46). -/
def ShareSafe (s : State) : Prop :=
  s.du.share ≤ 1250 ∧ (s.du.state ≠ .onbus → s.du.state ≠ .rampdown → s.du.share = 0)

/-- The lot queue (R107, R108): at most 8 lots, none empty, every lot but the oldest whole, no number but 0 twice. -/
def LotsSound (lots : List Lot) : Prop :=
  lots.length ≤ 8 ∧ (∀ l ∈ lots, 1 ≤ l.remaining) ∧ (∀ l ∈ lots.tail, l.remaining = l.delivered) ∧
    ((lots.map (·.number)).filter (· != 0)).Nodup

/-- The fuel book (R107, R108, R111): a sound queue, an overdraw of at most 500,000 dL, and only on an empty queue. -/
def BookSound (b : FuelBook) : Prop :=
  LotsSound b.lots ∧ b.overdraw ≤ maxOverdraw ∧ (0 < b.overdraw → b.lots = [])

/-- A record whose stored contents and running write satisfy a property. -/
def Rec.Holds {α : Type} (r : Rec α) (p : α → Prop) : Prop :=
  (∀ a, r.stored = .good a → p a) ∧ (∀ a, r.writing = some a → p a)

/-- The fuel book is sound, in the FU and in the store; while a visit is in progress a lot can be entered for it, no
reconciliation is due, and one that repays overdraw finds the queue empty (R113, R124, R133, R134). -/
def FuelSound (s : State) : Prop :=
  BookSound (fuelBookOf s.fu) ∧ s.store.fuelBook.Holds BookSound ∧
    (∀ v, s.fu.visit = some v → v.inProgress = true →
      v.number ≠ 0 ∧ (s.fu.lots.length < 8 ∨ s.fu.carries v.number = true) ∧ s.fu.reconTimer = none ∧
        s.fu.waitLevel = false ∧ (v.repaying = true → s.fu.lots = []))

/-- The peer table (R23 to R26): at most 15 entries, of different stations 1 to 27, with fields as Table 2-3 clamps
them and the age timer R25 gives. -/
def PeersSound (s : State) : Prop :=
  s.pt.entries.length ≤ 15 ∧ (s.pt.entries.map (·.station)).Nodup ∧
    ∀ e ∈ s.pt.entries, 1 ≤ e.station ∧ e.station ≤ 27 ∧ e.age = 3 * e.fields.heartbeat + 200 ∧
      500 ≤ e.fields.heartbeat ∧ e.fields.heartbeat ≤ 2000 ∧ e.fields.heartbeat % 100 = 0 ∧
      e.fields.share ≤ 1250 ∧ e.fields.hours ≤ 9999 ∧ e.fields.partner ≤ 27 ∧ e.fields.shedCount ≤ 4 ∧
      (e.fields.setFitted = true → 10 ≤ e.fields.rating ∧ e.fields.rating ≤ 2000) ∧
      (e.fields.setFitted = false → e.fields.rating = 0 ∧ e.fields.output = 0 ∧ e.fields.onBus = false)

/-- The side of a handover a state belongs to (Table 4-1): `some true` outgoing, `some false` incoming, none either. -/
def Handover.side : Handover → Option Bool
  | .hold | .call => some true
  | .offered => some false
  | .idle | .prepare | .parallel | .deadbus | .release => none

/-- The station is never on both sides of a handover, holds no record in IDLE and one in every other state, of the side
the state belongs to (R61, Table 4-1). -/
def SidesSound (s : State) : Prop :=
  (s.cc.call = none ∨ s.cc.inc = none) ∧
    (s.cc.state = .idle ↔ s.cc.call = none ∧ s.cc.inc = none) ∧
    (s.cc.state.side = some true → s.cc.inc = none) ∧ (s.cc.state.side = some false → s.cc.call = none)

/-- No FOFF is pulsed or kept for a PROTECTED feeder (R89), and the rotation orders name the fitted feeders of their
own class alone (R90). -/
def ProtectedSafe (s : State) : Prop :=
  (∀ n, s.cfg.cls.get n = .protectedClass →
    (s.fli.feeder.get n).pulse ≠ some .off ∧ (s.fli.feeder.get n).deferred ≠ some .off) ∧
  (∀ k, k ≠ FeederClass.protectedClass → ∀ n ∈ s.sc.rotation k, s.cfg.fitted.get n = true ∧ s.cfg.cls.get n = k)

/-- The shed list holds each feeder at most once, and so at most four entries (R91). -/
def ShedListSound (s : State) : Prop := (s.sc.shedList.map (·.feeder)).Nodup

/-- The transmit queue (R168, R170): at most 8 frames, at most 6 attempts each, a sixth only under transmission. -/
def QueueSound (s : State) : Prop :=
  s.lc.queue.length ≤ 8 ∧
    (match s.lc.queue with
     | [] => True
     | f :: rest => f.attempts ≤ (if s.lc.sending then 6 else 5) ∧ ∀ g ∈ rest, g.attempts ≤ 5)

/-- An account slot (R151, R156): a carry below 100,000 and at most four statements. -/
def SlotSound (x : Slot) : Prop := x.carry < 100000 ∧ x.statements.length ≤ 4

/-- The accounts (R147, R151, R156, R157): eight slots in order, a rate of at most 999,999, a journal of at most 32, in
the BU and in the store; at most 15 peer cost entries (R146). -/
def AccountsSound (s : State) : Prop :=
  s.bu.slots.length = 8 ∧ s.store.slots.length = 8 ∧ (∀ x ∈ s.bu.slots, SlotSound x) ∧
    (∀ r ∈ s.store.slots, r.Holds SlotSound) ∧ s.bu.rate ≤ 999999 ∧ s.store.rate.Holds (· ≤ 999999) ∧
    s.bu.journal.length ≤ 32 ∧ s.store.journal.Holds (·.length ≤ 32) ∧ s.bu.costPeers.length ≤ 15

/-- Every named state invariant of the part. -/
def Sound (s : State) : Prop :=
  ValveSafe s ∧ ShareSafe s ∧ FuelSound s ∧ PeersSound s ∧ SidesSound s ∧ ProtectedSafe s ∧ ShedListSound s ∧
    QueueSound s ∧ AccountsSound s

end Sys2Proof.Machine
end

