-- ==== Sys2Proof/Certificates/Slice0/Obligations.lean ====
section
/-! DEFINITION. The statements for the provers. -/

open Sys2Proof Sys2Proof.Machine

/-! ### The whole part -/

/-- The step takes the command at the front of the queue and carries it out on the state with the queue's rest. -/
def Obligations.StepRunsTheFrontCommand : Prop :=
  ∀ (c : Instr) (rest : List Instr) (s : State), s.pending = c :: rest →
    step s = exec c { s with pending := rest }

/-- The state before the first power-on (the model's choice, log 1): no power, every retained record absent, every
unit as it stands after a start that finds nothing active, no command waiting. -/
def Obligations.ResetHoldsTheStartValues : Prop :=
  State.reset.phase = .off ∧ State.reset.pending = [] ∧
    State.reset.store = { fuelBook := .absent, shrink := .absent, interval := .absent, rate := .absent,
                          slots := List.replicate 8 .absent, journal := .absent, postingNumber := .absent,
                          clockFloor := .absent } ∧
    (∀ c, State.reset.pcu.get c = ⟨none, 0, 0, 0, 0, 0⟩) ∧ State.reset.pcu.level = none ∧
    (∀ d, State.reset.fli.dev d = ⟨none, none, none⟩) ∧ State.reset.fli.valve = false ∧ State.reset.fli.aux = 0 ∧
    State.reset.pt.entries = [] ∧ State.reset.pt.clock = 0 ∧ State.reset.pt.clockValid = false ∧
    State.reset.du.state = .stopped ∧ State.reset.du.breaker = false ∧ State.reset.du.share = 0 ∧
    State.reset.cc.state = .idle ∧ State.reset.cc.call = none ∧ State.reset.cc.inc = none ∧
    State.reset.cc.counter = 0 ∧ State.reset.sc.shedList = [] ∧
    State.reset.fu.lots = [] ∧ State.reset.fu.overdraw = 0 ∧ State.reset.fu.visit = none ∧
    State.reset.bu.rate = 0 ∧ State.reset.bu.journal = [] ∧ State.reset.bu.costPeers = [] ∧
    State.reset.lc.enabled = false ∧ State.reset.lc.queue = [] ∧ State.reset.lc.duplicate = false

/-- No command stops the part: each answers a next state, and leaves the commands that wait as they are. On an empty
queue the part idles (the model's choice, log 4). -/
def Obligations.EveryCommandCompletes : Prop :=
  (∀ (c : Instr) (s : State), ∃ t, exec c s = .next t ∧ t.pending = s.pending) ∧
  (∀ s : State, s.pending = [] → step s = .next s)

/-- Between two starts the configuration, its flag, the damage flag and the power state stand as they are. -/
def Obligations.ConfigurationStandsBetweenStarts : Prop :=
  ∀ (c : Instr) (s t : State), c.startsOrStops = false → exec c s = .next t →
    t.cfg = s.cfg ∧ t.configClamped = s.configClamped ∧ t.retainedDamaged = s.retainedDamaged ∧ t.phase = s.phase

/-- A part without power, or halted by an unusable image, takes nothing in: only POWER_ON, POWER_FAIL and, with
power, RESET_INPUT act on it. The model's reading of commands that reach a part without power (logs 4 and 8). -/
def Obligations.HaltedPartTakesNothing : Prop :=
  ∀ (c : Instr) (s : State), (s.phase = .off ∨ s.phase = .unusable) →
    (c.startsOrStops = false → exec c s = .next s) ∧
    (∀ inp, exec (.restartHandover inp) s = .next s) ∧
    (s.phase = .off → ∀ inp, exec (.resetInput inp) s = .next s)

/-! ### Starts, loss of power, the store -/

/-- A start that finds an unusable image stops after step 2: the outputs are idle, ALERT is active, the LC is not
enabled, the store is as the start found it, whatever reaches the part during the start. That a RESET or a RESTART
completes the writes in progress, and a second POWER_ON loses power first, is the model's reading (logs 8 and 9). -/
def Obligations.UnusableImageHaltsTheStart : Prop :=
  ∀ (inp : StartInputs) (s : State), imageUsable inp.image = false → abandonedBefore inp 2 = false →
    exec (.powerOn inp) s = .next ((if s.phase = .off then s else losePower s).fresh .unusable) ∧
    (s.phase ≠ .off →
      exec (.resetInput inp) s = .next (State.fresh { s with store := s.store.finish s } .unusable)) ∧
    (s.isUp = true → s.lc.restart = .ready →
      exec (.restartHandover inp) s = .next (State.fresh { s with store := s.store.finish s } .unusable)) ∧
    (∀ x : State, (x.fresh .unusable).alertOutput = true ∧ (x.fresh .unusable).fli = Fli.start ∧
      (x.fresh .unusable).lc.enabled = false ∧ (x.fresh .unusable).store = x.store ∧
      (x.fresh .unusable).pending = x.pending)

/-- A start with a usable image that nothing cuts off ends with the part running, its LC enabled, its configuration
taken from the image, and its two flags telling whether a field was clamped and a record damaged. It keeps the
commands that wait. Step 3 hands the PT the floor; step 7 hands the FU and the BU what their records hold, or the
values of Table 10-4, closes the interval found open, maps the accounts and opens a new interval. The close posts in
feeder order with SHORT INTERVAL and RATE HELD; a code finds its slot in the order of R154; after the mapping a slot
is LIVE exactly where its code is configured, a slot of a configured code keeps its figures, and every configured
code is held, unless every slot holds one. That a RESET or a RESTART completes the writes in progress, and a second
POWER_ON loses power first, is the model's reading (logs 8 and 9). -/
def Obligations.UsableImageStartsThePart : Prop :=
  (∀ (inp : StartInputs) (s : State), imageUsable inp.image = true → inp.abandonAfter = none →
    let started (store : Store) (t : State) : Prop :=
      t.phase = .running ∧ t.lc.enabled = true ∧ t.cfg = (loadConfig inp.image).1 ∧
        t.configClamped = (loadConfig inp.image).2 ∧ t.retainedDamaged = store.anyDamaged ∧ t.pending = s.pending
    (∃ t, exec (.powerOn inp) s = .next t ∧ started (if s.phase = .off then s.store else s.store.cut) t) ∧
    (s.phase ≠ .off → ∃ t, exec (.resetInput inp) s = .next t ∧ started (s.store.finish s) t) ∧
    (s.isUp = true → s.lc.restart = .ready →
      ∃ t, exec (.restartHandover inp) s = .next t ∧ started (s.store.finish s) t)) ∧
  (∀ (inp : StartInputs) (s : State),
    let x := startStep 3 inp s
    let t := startStep 7 inp s
    let lost {α : Type} (r : Rec α) : Prop := r.stored = .absent ∨ r.stored = .damaged
    x.retainedDamaged = s.store.anyDamaged ∧ x.pt.clock = x.pt.floor ∧
    (∀ v, s.store.clockFloor.stored = .good v → x.pt.floor = v) ∧ (lost s.store.clockFloor → x.pt.floor = 0) ∧
    (s.cfg.tankFitted = true →
      (∀ b, s.store.fuelBook.stored = .good b →
        t.fu.lots = b.lots ∧ t.fu.overdraw = b.overdraw ∧ t.fu.heldPrice = b.heldPrice) ∧
      (lost s.store.fuelBook → t.fu.lots = [] ∧ t.fu.overdraw = 0 ∧ t.fu.heldPrice = 0) ∧
      (∀ k, s.store.shrink.stored = .good k → t.fu.shrinkValue = k.shrinkValue ∧ t.fu.recon = k.recon) ∧
      (lost s.store.shrink → t.fu.shrinkValue = 0 ∧ t.fu.recon.origin = .none) ∧
      t.fu.unbooked = 0 ∧ t.fu.visit = none ∧ t.fu.delivery = none ∧ t.fu.reconTimer = none ∧ t.fu.waitLevel = false ∧
      t.fu.claimRepeat = none ∧ t.fu.flowStall = none ∧ t.fu.pauseTimer = none) ∧
    (s.cfg.tankFitted = false → t.fu = Fu.start) ∧
    (let slotOf (r : Rec Slot) : Slot :=
       match r.stored with
       | .good y => y
       | .absent => Slot.free
       | .damaged => { Slot.free with reopened := true }
     let handed : Bu := { Bu.start with
       rate := s.store.rate.read 0, slots := s.store.slots.map slotOf, postingNumber := s.store.postingNumber.read 0
       journal :=
         match s.store.postingNumber.stored with
         | .good _ => s.store.journal.read []
         | .absent | .damaged => [] }
     ((∀ i, s.store.interval.stored = .good i →
        t.bu = { (mapAccounts (startClose handed s.cfg i s.pt.clock).1 s.cfg).1 with
          interval := openInvalid s.cfg s.pt.clock }) ∧
      (lost s.store.interval →
        t.bu = { (mapAccounts handed s.cfg).1 with interval := openInvalid s.cfg s.pt.clock })) ∧
     (openInvalid s.cfg s.pt.clock).band = none ∧ (openInvalid s.cfg s.pt.clock).endPoint = none ∧
     ∀ n, (openInvalid s.cfg s.pt.clock).feeders.get n =
       if s.cfg.fitted.get n then some ⟨s.cfg.tenant.get n, 0, 0, 0⟩ else none)) ∧
  (∀ (b : Bu) (g : Cfg) (i : Interval) (v : Nat),
    let x := startClose b g i v
    let k : CloseTerms :=
      { clock := v, band := closingBand g i, rate := b.rate, short := true, held := true, lot := i.lotChange }
    x.1 = FeederId.every.foldl (fun c n =>
      match i.feeders.get n with
      | some a => if a.tenant = 0 then c else (postFeeder k c n a).1
      | none => c) b ∧
    x.1.rate = b.rate ∧ x.1.costPeers = b.costPeers ∧ (∀ r ∈ x.2, ∃ w, r = .sr (.touch w)) ∧
    (∀ e ∈ x.1.journal, e ∈ b.journal ∨
      (e.shortInterval = true ∧ e.rateHeld = true ∧ e.endClock = v ∧ e.rate = b.rate ∧ e.lotChange = i.lotChange)) ∧
    (∀ y, i.band = some y → closingBand g i = y) ∧
    (∀ y, i.band = none → takeBand g i.openClock = some y → closingBand g i = y)) ∧
  (∀ (l : List Slot) (c : Nat),
    let held := l.findIdx? fun x => x.tenant == c
    let marked := l.findIdx? fun x => x.tenant == 0 && x.reopened
    let free := l.findIdx? fun x => x.tenant == 0
    let older (x y : Slot) : Prop :=
      (x.lastClock = none ∧ y.lastClock.isSome = true) ∨
        ∃ m n, x.lastClock = some m ∧ y.lastClock = some n ∧ m < n
    let dormant (i : Nat) (x : Slot) : Prop := l[i]? = some x ∧ x.tenant ≠ 0 ∧ x.status = .dormant
    (∀ i x, held = some i → l[i]? = some x → findSlot l c = some (i, x)) ∧
    (∀ i, held = none → marked = some i → findSlot l c = some (i, Slot.opened c true)) ∧
    (∀ i, held = none → marked = none → free = some i → findSlot l c = some (i, Slot.opened c false)) ∧
    (held = none → marked = none → free = none →
      (∀ i x, dormant i x → (∀ j y, dormant j y → j ≠ i → older x y ∨ (¬ older y x ∧ i < j)) →
        findSlot l c = some (i, Slot.opened c false)) ∧
      ((∀ i x, ¬ dormant i x) → findSlot l c = none))) ∧
  (∀ (b : Bu) (g : Cfg),
    let y := (mapAccounts b g).1
    y.rate = b.rate ∧ y.journal = b.journal ∧ y.postingNumber = b.postingNumber ∧ y.slots.length = b.slots.length ∧
    (∀ x ∈ y.slots, x.tenant ≠ 0 → (x.status = .live ↔ g.bills x.tenant = true)) ∧
    (∀ (i : Nat) (x : Slot), b.slots[i]? = some x → g.bills x.tenant = true →
      y.slots[i]? = some { x with status := .live }) ∧
    (∀ n, g.fitted.get n = true → g.tenant.get n ≠ 0 →
      (∃ x ∈ y.slots, x.tenant = g.tenant.get n ∧ x.status = .live) ∨ ∀ x ∈ y.slots, g.bills x.tenant = true))

/-- Step 6 rebuilds the set from the sampled inputs as Table 3-2 gives: state, breaker, origin and cause, S at 0, no
join request, intent or claim, no timer but the start timer of a WARMING set. It rebuilds the feeders from FFB:
position, no command in flight, no mark, the rotation orders in feeder index, and each open feeder on the shed list
as OPEN AT START, PROTECTED first and the other classes from the highest priority down. A set rebuilt into FAULT
with BRK active is handed TRIP. -/
def Obligations.StartRebuildsTheSet : Prop :=
  ∀ (inp : StartInputs) (s : State),
    let l := s.fli.inputs
    let d := (startStep 6 inp s).du
    (l.fault = true → d.state = .fault ∧ d.cause = some .faultInput) ∧
    (l.fault = false → l.running = false → l.brk = true → d.state = .fault ∧ d.cause = some .runLost) ∧
    (l.fault = false → l.running = false → l.brk = false → d.state = .stopped ∧ d.cause = none) ∧
    (l.fault = false → l.running = true → l.brk = true → d.state = .onbus ∧ d.cause = none) ∧
    (l.fault = false → l.running = true → l.brk = false → l.ready = true → d.state = .ready ∧ d.cause = none) ∧
    (l.fault = false → l.running = true → l.brk = false → l.ready = false → d.state = .warming ∧ d.cause = none) ∧
    d.breaker = l.brk ∧ d.origin = (if l.running then some .hand else none) ∧ d.share = 0 ∧ d.join = none ∧
    d.startIntent = none ∧ d.stopIntent = none ∧ d.claim = none ∧
    d.startTimer = (if d.state = .warming then some 120000 else none) ∧ d.cooldown = none ∧ d.ramp = none ∧
    d.joinTimer = none ∧ d.stopRepeat = none ∧
    (let x := (startStep 6 inp s).fli
     (d.state = .fault → l.brk = true → x = (fliCommand s.fli .breaker .off).1 ∧
       (s.fli.breaker = Dev.idle → x = { s.fli with breaker := ⟨some .off, none, some .off⟩ })) ∧
     (d.state ≠ .fault ∨ l.brk = false → x = s.fli)) ∧
    (let c := (startStep 6 inp s).sc
     let o := s.cfg.order
     let rank (n : FeederId) : Nat := priority o (s.cfg.cls.get n)
     (∀ n, let r := c.recs.get n
       r.closed = (s.cfg.fitted.get n && l.ffb.get n) ∧ r.inFlight = none ∧ r.steady = false ∧ r.failed = none ∧
         r.lastKw = none) ∧
     (∀ k, k ≠ FeederClass.protectedClass → c.rotation k =
       FeederId.every.filter fun n => s.cfg.fitted.get n && s.cfg.cls.get n == k) ∧
     (∀ e ∈ c.shedList, e.cause = .openAtStart ∧ s.cfg.fitted.get e.feeder = true ∧ l.ffb.get e.feeder = false) ∧
     ([o.lowest, o.middle, o.highest].Nodup → FeederClass.protectedClass ∉ [o.lowest, o.middle, o.highest] →
       (∀ n, s.cfg.fitted.get n = true → l.ffb.get n = false → c.listed n = true) ∧
       c.shedList.Pairwise fun a b => rank b.feeder < rank a.feeder ∨
         (rank a.feeder = rank b.feeder ∧ a.feeder.index < b.feeder.index)) ∧
     c.window = none ∧ c.settle = none ∧ c.spacing = none ∧ c.waiting = false)

/-- Each field of a usable image is kept as the image holds it where it lies in its range, and is else taken as the
nearest limit or as Table 10-2 says; CONFIG CLAMPED is set exactly when some field is not kept. Unused bands are not
clamped (the model's reading, log 34). -/
def Obligations.ConfigurationIsClampedIntoRange : Prop :=
  ∀ p : List Byte, imageUsable p = true →
    let g := (loadConfig p).1
    let raw (o w : Nat) : Nat := fieldAt p o w
    let near (lo hi n : Nat) : Nat := max lo (min hi n)
    let place (c : Channel) : Nat :=
      13 + 6 * (match c with | .se => 0 | .bf => 1 | .ff => 2 | .lp => 3 | .f n => 3 + n.index)
    let listed (l : List Nat) (n got : Nat) : Prop :=
      got ∈ l ∧ got ≤ max 1 n ∧ ∀ a ∈ l, a ≤ n → a ≤ got
    let codes : List Nat := [raw 81 1, raw 82 1, raw 83 1]
    let orderCodes : List Nat := [g.order.lowest, g.order.middle, g.order.highest].map fun k => classCode (some k)
    let clsCode (n : FeederId) : Nat := raw (91 + n.index) 1
    let band (n : FeederId) : Nat := 96 + 8 * (n.index - 1)
    let used (n : FeederId) : Prop := raw (band n) 2 ≠ 65535
    let e := near 10 10000 (raw 9 2)
    let f := near 10 10000 (raw 11 2)
    g.station = raw 0 1 ∧ 1 ≤ g.station ∧ g.station ≤ 27 ∧ g.group = near 1 15 (raw 1 1) ∧
    g.setFitted = (raw 2 1).testBit 0 ∧ g.tankFitted = (raw 2 1).testBit 1 ∧ g.closedCap = (raw 2 1).testBit 2 ∧
    (∀ n, g.fitted.get n = (raw 2 1).testBit (3 + n.index)) ∧
    g.heartbeat = near 500 2000 (raw 3 2) / 100 * 100 ∧ g.rating = near 10 2000 (raw 5 2) ∧
    g.capacity = near 100 50000 (raw 7 2) ∧
    g.fE = e ∧ g.fF = (if e ≠ f then f else if f = 10000 then 9999 else f + 1) ∧
    (∀ c, (g.chan c).prescale = near 1 64 (raw (place c) 1) ∧ (g.chan c).weight = near 1 1000 (raw (place c + 1) 2) ∧
      listed [1, 2, 5, 10, 30, 60] (raw (place c + 3) 1) (g.chan c).window ∧
      (g.chan c).minWidth = near 5 500 (raw (place c + 4) 2)) ∧
    g.startThr = near 50 95 (raw 61 1) ∧ g.stopThr = near 20 70 (raw 62 1) ∧ g.startDwell = near 5 120 (raw 63 1) ∧
    g.stopDwell = near 30 900 (raw 64 2) ∧ g.cooldown = near 60 900 (raw 66 2) ∧ g.rampRate = near 1 20 (raw 68 1) ∧
    g.overload = near 90 110 (raw 69 1) ∧ g.restore = near 60 90 (raw 70 1) ∧ g.tolerance = min 2000 (raw 73 2) ∧
    g.claimThr = min 999 (raw 75 2) ∧ g.fillLimit = near 80 98 (raw 77 1) ∧ g.standby = raw 78 2 ∧
    listed [1, 2, 3, 4, 5, 6, 10, 12, 15] (raw 80 1) g.intervalLen ∧
    (List.Perm codes [1, 2, 3] → orderCodes = codes) ∧ (¬ List.Perm codes [1, 2, 3] → orderCodes = [3, 2, 1]) ∧
    (∀ n, g.tenant.get n = min 4095 (raw (82 + 2 * n.index) 2)) ∧
    (∀ n, (1 ≤ clsCode n ∧ clsCode n ≤ 4 → classCode (some (g.cls.get n)) = clsCode n) ∧
      (clsCode n < 1 ∨ 4 < clsCode n → g.cls.get n = .protectedClass)) ∧
    (∀ n, used n → g.bands.get n =
      let h := raw (band n + 6) 2
      ⟨true, min 1439 (raw (band n) 2), min 999 (raw (band n + 2) 2), raw (band n + 4) 2, h, (500 * h + 9) / 18⟩) ∧
    ((∃ m, used m) → ∀ n, ¬ used n → (g.bands.get n).inUse = false) ∧
    ((∀ m, ¬ used m) → g.bands.q1 = ⟨true, 0, 100, 0, 0, 0⟩ ∧
      ∀ n, n ≠ .f1 → (g.bands.get n).inUse = false) ∧
    (∀ k, k < 8 → g.aux.getD k 0 = (byteAt p (128 + k)).setWidth 6) ∧
    ((loadConfig p).2 = false ↔
      g.group = raw 1 1 ∧ g.heartbeat = raw 3 2 ∧ g.rating = raw 5 2 ∧ g.capacity = raw 7 2 ∧ g.fE = raw 9 2 ∧
      g.fF = raw 11 2 ∧
      (∀ c, (g.chan c).prescale = raw (place c) 1 ∧ (g.chan c).weight = raw (place c + 1) 2 ∧
        (g.chan c).window = raw (place c + 3) 1 ∧ (g.chan c).minWidth = raw (place c + 4) 2) ∧
      g.startThr = raw 61 1 ∧ g.stopThr = raw 62 1 ∧ g.startDwell = raw 63 1 ∧ g.stopDwell = raw 64 2 ∧
      g.cooldown = raw 66 2 ∧ g.rampRate = raw 68 1 ∧ g.overload = raw 69 1 ∧ g.restore = raw 70 1 ∧
      g.low = raw 71 1 ∧ g.critical = raw 72 1 ∧ g.tolerance = raw 73 2 ∧ g.claimThr = raw 75 2 ∧
      g.fillLimit = raw 77 1 ∧ g.intervalLen = raw 80 1 ∧ orderCodes = codes ∧
      (∀ n, g.tenant.get n = raw (82 + 2 * n.index) 2) ∧
      (∀ n, g.fitted.get n = true → classCode (some (g.cls.get n)) = clsCode n) ∧
      (∃ n, used n) ∧ ∀ n, used n → (g.bands.get n).start = raw (band n) 2 ∧ (g.bands.get n).m = raw (band n + 2) 2)

/-- The thresholds LOW and CRITICAL: each clamped to its range, CRITICAL then lowered to LOW - 5 if it stands above,
either clamp setting CONFIG CLAMPED; they stand until the next start. -/
def Obligations.ThresholdsAreClamped : Prop :=
  (∀ p : List Byte,
    let low := fieldAt p 71 1
    let critical := fieldAt p 72 1
    let g := (loadConfig p).1
    g.low = (if low < 20 then 20 else if 240 < low then 240 else low) ∧
    (let c := if critical < 5 then 5 else if 60 < critical then 60 else critical
     g.critical = if g.low - 5 < c then g.low - 5 else c) ∧
    ((g.low ≠ low ∨ g.critical ≠ critical) → (loadConfig p).2 = true)) ∧
  (∀ (c : Instr) (s t : State), c.startsOrStops = false → exec c s = .next t →
    t.cfg.low = s.cfg.low ∧ t.cfg.critical = s.cfg.critical)

/-- Loss of power leaves the store, with every write that ran cut off, the commands that wait, and the model's two
counters, of answers and of free values (logs 45 and 17). All else stands as before the first power-on, the
configuration blank (the model's choice of what a part without power holds, logs 1 and 2). -/
def Obligations.PowerFailKeepsTheStoreAlone : Prop :=
  ∀ s : State, ∃ t, exec .powerFail s = .next t ∧ t.phase = .off ∧ t.pending = s.pending ∧ t.store = s.store.cut ∧
    t.cfg = Cfg.blank ∧ t.pcu = Pcu.start ∧ t.fli = Fli.start ∧ t.pt = Pt.start ∧ t.du = Du.start ∧ t.cc = Cc.start ∧
    t.sc = Sc.start ∧ t.fu = Fu.start ∧ t.bu = Bu.start ∧ t.configClamped = false ∧ t.retainedDamaged = false ∧
    t.lc = { Lc.start with answerSeq := s.lc.answerSeq, draws := s.lc.draws } ∧
    (∀ {α : Type} (r : Rec α), r.cut.writing = none ∧
      r.cut.stored = if r.writing.isSome then .damaged else r.stored)

/-- A record's write ends with the contents it began with stored; a record that has changed since is written once
more with the contents of that moment, and a record no write runs for is left alone. Every other record stays, and
nothing but the store changes. -/
def Obligations.RecordWritesEnd : Prop :=
  (∀ (r : RecordId) (s : State), s.isUp = true →
    exec (.retainedWriteComplete r) s = .next { s with store := s.store.written s r }) ∧
  (∀ {α : Type} (r : Rec α) (now : α),
    (r.writing = none → r.written now = r ∧ r.touch now = ⟨r.stored, some now, false⟩) ∧
    (∀ c, r.writing = some c →
      r.written now = ⟨.good c, if r.again then some now else none, false⟩ ∧
      r.touch now = ⟨r.stored, some c, true⟩)) ∧
  (∀ (t : Store) (s : State) (r : RecordId),
    let u := t.written s r
    u.fuelBook = (if r = .fuelBook then t.fuelBook.written (fuelBookOf s.fu) else t.fuelBook) ∧
    u.shrink = (if r = .shrink then t.shrink.written (shrinkOf s.fu) else t.shrink) ∧
    u.interval = (if r = .interval then t.interval.written s.bu.interval else t.interval) ∧
    u.rate = (if r = .rate then t.rate.written s.bu.rate else t.rate) ∧
    u.journal = (if r = .journal then t.journal.written s.bu.journal else t.journal) ∧
    u.postingNumber = (if r = .postingNumber then t.postingNumber.written s.bu.postingNumber else t.postingNumber) ∧
    u.clockFloor = (if r = .clockFloor then t.clockFloor.written s.pt.floor else t.clockFloor) ∧
    u.slots.length = t.slots.length ∧
    ∀ (i : Fin 8) (x : Rec Slot), t.slots[i.val]? = some x →
      u.slots[i.val]? = some (if r = .slot i then x.written (s.bu.slots.getD i .free) else x))

/-! ### Pulse channels -/

/-- A pulse of a channel in use adds 1 to the prescaler remainder; at the prescale value the remainder returns to 0
and a count completes, which adds the weight to the running total and 1 to the window count. LP ignores prescale and
weight: each pulse is a count. No pulse is lost: counts times prescale, plus the remainder at the end, are the
pulses plus the remainder at the start. The other channels and the probe level stay. A completed count hands its
running total to the consumers of Table 1-1, which keep it and book the units since the one before, the FU and the
BU one at a time; no other pulse hands anything on. -/
def Obligations.PulsesArePrescaled : Prop :=
  (∀ (s : State) (c : Channel) (gap active : Nat), s.phase = .running → s.cfg.channelInUse c = true →
    pulseWide (s.cfg.chan c) (s.pcu.get c).period gap active = true →
    let x : Chan := { s.pcu.get c with period := none }
    ∃ t, exec (.pulseAccepted c gap active) s = .next t ∧ t.pcu.level = s.pcu.level ∧
      (∀ d, d ≠ c → t.pcu.get d = s.pcu.get d) ∧
      (c = .lp → t.pcu.get c = { x with count := x.count + 1 }) ∧
      (c ≠ .lp → x.remainder + 1 < (s.cfg.chan c).prescale →
        t.pcu.get c = { x with remainder := x.remainder + 1 }) ∧
      (c ≠ .lp → (s.cfg.chan c).prescale ≤ x.remainder + 1 →
        t.pcu.get c = { x with
          remainder := 0, total := x.total + BitVec.ofNat 32 (s.cfg.chan c).weight, count := x.count + 1 })) ∧
  (∀ (g : ChanCfg) (windowed : Bool) (n : Nat) (x : Chan), 1 ≤ g.prescale → x.remainder < g.prescale →
    (Chan.acceptMany g windowed n x).1 * g.prescale + (Chan.acceptMany g windowed n x).2.remainder =
      n + x.remainder ∧
    (Chan.acceptMany g windowed n x).2.remainder < g.prescale) ∧
  (∀ (s : State) (c : Channel) (gap active : Nat), s.phase = .running → s.cfg.channelInUse c = true →
    pulseWide (s.cfg.chan c) (s.pcu.get c).period gap active = true →
    let x := s.pcu.get c
    let total := x.total + BitVec.ofNat 32 (s.cfg.chan c).weight
    let told := (deliver (.pcu (.pulse c gap active)) s).2
    (c = .lp ∨ x.remainder + 1 < (s.cfg.chan c).prescale → told = []) ∧
    ((s.cfg.chan c).prescale ≤ x.remainder + 1 →
      (c = .se → told.Perm [.du (.seTotal total), .bu (.seTotal total)]) ∧
      (c = .bf → told = [.fu (.bfTotal total)]) ∧ (c = .ff → told = [.fu (.ffTotal total)]) ∧
      (∀ n, c = .f n → told = [.bu (.fTotal n total)]))) ∧
  (∀ (s : State) (t : BitVec 32),
    deliver (.du (.seTotal t)) s = ({ s with du := { s.du with heldSe := t } }, []) ∧
    deliver (.fu (.bfTotal t)) s =
      ({ s with fu := { s.fu with heldBf := t } }, [.fu (.burn (t - s.fu.heldBf).toNat)]) ∧
    deliver (.fu (.ffTotal t)) s =
      ({ s with fu := { s.fu with heldFf := t } }, [.fu (.fill (t - s.fu.heldFf).toNat)]) ∧
    deliver (.bu (.seTotal t)) s =
      ({ s with bu := { s.bu with heldSe := t } }, [.bu (.seUnits (t - s.bu.heldSe).toNat)]) ∧
    (∀ n, deliver (.bu (.fTotal n t)) s =
      ({ s with bu := { s.bu with heldF := s.bu.heldF.put n t } }, [.bu (.fUnits n (t - s.bu.heldF.get n).toNat)])))

/-- A stretch at a channel not in use changes nothing. Behind a gap of the minimum width a stretch begins an active
period, behind a narrower one it belongs to the period before: as long as that is short of the minimum width it is
remembered and nothing else happens, as it reaches the width it is one pulse, and a period that has made its pulse
makes no other. The gaps inside a period add nothing to its width (the model's choice, log 13). From step 4 of a
start to its end a pulse reaches the remainder and the running total, no window count, and nothing is handed on. -/
def Obligations.PulsesWithoutEffect : Prop :=
  (∀ (s : State) (c : Channel) (gap active : Nat), s.cfg.channelInUse c = false →
    exec (.pulseAccepted c gap active) s = .next s) ∧
  (∀ (s : State) (c : Channel) (gap active : Nat), s.phase = .running → s.cfg.channelInUse c = true →
    let g := s.cfg.chan c
    let x := s.pcu.get c
    let period : Option Nat := if g.minWidth ≤ gap then some active else x.period.map fun w => w + active
    (pulseWide g x.period gap active = true ↔ ∃ w, period = some w ∧ g.minWidth ≤ w) ∧
    (period = none → exec (.pulseAccepted c gap active) s = .next s) ∧
    (∀ w, period = some w → w < g.minWidth → exec (.pulseAccepted c gap active) s =
      .next { s with pcu := s.pcu.put c { x with period := some w } }) ∧
    (∀ w t, period = some w → g.minWidth ≤ w → exec (.pulseAccepted c gap active) s = .next t →
      (t.pcu.get c).period = none ∧
      ∀ gap' active', gap' < g.minWidth → exec (.pulseAccepted c gap' active') t = .next t)) ∧
  (∀ (s : State) (k : Nat) (c : Channel) (gap active : Nat), s.phase = .starting k → 4 ≤ k → c ≠ .lp →
    s.cfg.channelInUse c = true → pulseWide (s.cfg.chan c) (s.pcu.get c).period gap active = true →
    let x : Chan := { s.pcu.get c with period := none }
    let y : Chan :=
      if x.remainder + 1 < (s.cfg.chan c).prescale then { x with remainder := x.remainder + 1 }
      else { x with remainder := 0, total := x.total + BitVec.ofNat 32 (s.cfg.chan c).weight }
    exec (.pulseAccepted c gap active) s = .next { s with pcu := s.pcu.put c y })

/-- At a window expiry the window count is latched and starts again at 0, and the window figure is derived: kW for
SE and F1 to F4, dL/h for BF, the level in dL for LP, offered from then on. The other channels stay. The figure is
handed to the unit that uses it: SE's to the group figures and the DU, BF's to the FU, which computes hours-to-dry,
LP's to the FU, where it lets a reconciliation run that waits for a level, a feeder's to the SC. What a pulse hands
over is worked off at once. The reports are handed on in the model's order (log 3). -/
def Obligations.WindowsLatchTheCount : Prop :=
  (∀ (s : State) (c : Channel), s.phase = .running → s.cfg.channelInUse c = true →
     let g := s.cfg.chan c
     let n := (s.pcu.get c).count
     let k := 10 * s.cfg.capacity
     ∃ t, exec (.windowExpiry c) s = .next t ∧ (∀ d, d ≠ c → t.pcu.get d = s.pcu.get d) ∧
       (t.pcu.get c).latched = n ∧ (t.pcu.get c).count = 0 ∧ (t.pcu.get c).total = (s.pcu.get c).total ∧
       (t.pcu.get c).remainder = (s.pcu.get c).remainder ∧
       ((c = .se ∨ ∃ f, c = .f f) → (t.pcu.get c).figure = min 65535 (n * g.weight * 3600 / (g.window * 1000))) ∧
       (c = .bf → (t.pcu.get c).figure = n * g.weight * 3600 / g.window) ∧
       (c ≠ .lp → t.pcu.level = s.pcu.level) ∧
       (c = .lp → s.cfg.fE < s.cfg.fF → t.pcu.level = some
         (if s.cfg.fE * g.window < n then
            min k ((n - s.cfg.fE * g.window) * k / ((s.cfg.fF - s.cfg.fE) * g.window)) else 0)) ∧
       (c = .lp → s.cfg.fF < s.cfg.fE → t.pcu.level = some
         (if n < s.cfg.fE * g.window then
            min k ((s.cfg.fE * g.window - n) * k / ((s.cfg.fE - s.cfg.fF) * g.window)) else 0))) ∧
  (∀ (s t : State) (c : Channel), s.phase = .running → s.cfg.channelInUse c = true →
    exec (.windowExpiry c) s = .next t →
    let told (rs : List Report) : Prop := t = State.handOn { s with pcu := t.pcu } 1 rs
    (c = .se → told [.pt .ownChanged, .du .seWindow]) ∧ (c = .bf → told [.fu .bfWindow]) ∧ (c = .ff → told []) ∧
    (c = .lp → told [.fu .lpWindow]) ∧ (∀ n, c = .f n → told [.sc (.fWindow n)])) ∧
  (∀ (s : State) (c : Channel) (gap active : Nat), s.isUp = true →
    let x := deliver (.pcu (.pulse c gap active)) s
    exec (.pulseAccepted c gap active) s = .next (State.handOn x.1 1 x.2)) ∧
  (∀ s : State,
    let h := computeHours s.fu s
    deliver (.fu .bfWindow) s = ({ s with fu := h.1 }, h.2) ∧
    (∀ p, s.fu.waitLevel = true → s.pcu.level = some p →
      let y := reconcile { s.fu with waitLevel := false } s .afterVisit p
      deliver (.fu .lpWindow) s = ({ s with fu := y.1 }, y.2)) ∧
    (s.fu.waitLevel = false ∨ s.pcu.level = none → deliver (.fu .lpWindow) s = (s, [])))

/-! ### Field lines -/

/-- A level held for 20 ms at an input in use becomes its state; no other input changes. VALVE closes as FILL KEY
goes off and as HIGH LEVEL goes active. A change of BRK or of a feeder's feedback is offered to the confirm that
runs for the device: at the command's target it completes it as confirmed, away from it the confirm runs on, and
with none running the change is told as uncommanded. LOCK acts on nothing else. A level that has not held for 20 ms,
that is the input's state already, or that stands at an input not in use changes nothing. The change of any other
input is handed to the units of Table 1-2: RUNNING, READY, FAULT and SYNC OK to the DU, BUS LIVE to the DU, the CC
and the SC, SHOW to the PT, FILL KEY and HIGH LEVEL to the FU. A change between step 5 of a start and its end is
kept, VALVE closing at once as FILL KEY goes off and as HIGH LEVEL goes active; the kept changes are reported at the
end of start-up, in the order they came, among the reports of that moment (log 7). A request opens VALVE only with a
tank fitted, FILL KEY on and HIGH LEVEL off, as reported and at the contacts, whose level is that of the last change
kept (log 57). The reports are handed on in the model's order (log 3). -/
def Obligations.HeldLevelsAreTaken : Prop :=
  (∀ (s : State) (i : Input) (b : Bool) (held : Nat), s.phase = .running →
     ((held < 20 ∨ inputLevel s.fli.inputs i = b ∨ s.cfg.inputInUse i = false) →
       exec (.inputChange i b held) s = .next s) ∧
     (20 ≤ held → s.cfg.inputInUse i = true → inputLevel s.fli.inputs i ≠ b →
       ∃ t, exec (.inputChange i b held) s = .next t ∧ inputLevel t.fli.inputs i = b ∧
         (∀ j, j ≠ i → inputLevel t.fli.inputs j = inputLevel s.fli.inputs j) ∧ t.pcu = s.pcu ∧
         t.pt.view = s.pt.view ∧
         (i = .fillKey → b = false → t.fli.valve = false) ∧ (i = .highLevel → b = true → t.fli.valve = false) ∧
         (i = .lock → t = { s with fli := { s.fli with inputs := setInput s.fli.inputs .lock b } })) ∧
     (∀ (d : Device) (told : Report) (ok : Sense → Report),
       ((i = .brk ∧ d = .breaker ∧ told = .du (.uncommanded b) ∧ ∀ c, ok c = .du (.confirmed c)) ∨
         ∃ n, i = .ffb n ∧ d = .feeder n ∧ told = .sc (.uncommanded n b) ∧ ∀ c, ok c = .sc (.confirmed n c)) →
       20 ≤ held → s.cfg.inputInUse i = true → inputLevel s.fli.inputs i ≠ b →
       let x : Fli := { s.fli with inputs := setInput s.fli.inputs i b }
       ((s.fli.dev d).confirm = none →
         exec (.inputChange i b held) s = .next (State.handOn { s with fli := x } 1 [told])) ∧
       (∀ c, (s.fli.dev d).confirm = some c → b ≠ c.target →
         exec (.inputChange i b held) s = .next { s with fli := x }) ∧
       (∀ c, (s.fli.dev d).confirm = some c → b = c.target →
         exec (.inputChange i b held) s = .next (State.handOn
           { s with fli := { x.putDev d { s.fli.dev d with confirm := none } with
             breakerFail := if d = .breaker then false else s.fli.breakerFail } } 1 [ok c])))) ∧
  (∀ (s : State) (i : Input) (b : Bool) (held : Nat), s.phase = .running → 20 ≤ held → s.cfg.inputInUse i = true →
    inputLevel s.fli.inputs i ≠ b →
    let taken (valve : Bool) (told : List Report) : Prop := exec (.inputChange i b held) s = .next (State.handOn
      { s with fli := { s.fli with inputs := setInput s.fli.inputs i b, valve := valve } } 1 told)
    (i = .running → taken s.fli.valve [.du (.running b)]) ∧ (i = .ready → taken s.fli.valve [.du (.readyInput b)]) ∧
    (i = .fault → taken s.fli.valve [.du (.faultInput b)]) ∧
    (i = .busLive → taken s.fli.valve [.du (.busLive b), .cc (.busLive b), .sc (.busLive b)]) ∧
    (i = .syncOk → taken s.fli.valve [.du (.syncOk b)]) ∧ (i = .showSwitch → taken s.fli.valve [.pt .showChanged]) ∧
    (i = .fillKey → taken (s.fli.valve && b) [.fu (.fillKey b)]) ∧
    (i = .highLevel → taken (s.fli.valve && !b) [.fu (.highLevel b)])) ∧
  (∀ (s : State) (k : Nat) (i : Input) (b : Bool) (held : Nat), s.phase = .starting k →
    let valve := s.fli.valve && !(i == .fillKey && !b || i == .highLevel && b)
    (k < 5 ∨ held < 20 ∨ s.cfg.inputInUse i = false → exec (.inputChange i b held) s = .next s) ∧
    (5 ≤ k → 20 ≤ held → s.cfg.inputInUse i = true → exec (.inputChange i b held) s =
      .next { s with fli := { s.fli with kept := s.fli.kept ++ [(i, b)], valve := valve } })) ∧
  (∀ (s : State) (i : Input) (b : Bool) (rest : List (Input × Bool)),
    let y : State := { s with fli := { s.fli with kept := rest } }
    (s.fli.kept = [] → deliver (.fli .reportKept) s = (s, [])) ∧
    (s.fli.kept = (i, b) :: rest → inputLevel s.fli.inputs i = b → deliver (.fli .reportKept) s = (y, [])) ∧
    (s.fli.kept = (i, b) :: rest → s.phase = .running → s.cfg.inputInUse i = true →
      deliver (.fli .reportKept) s = deliver (.fli (.level i b 20)) y) ∧
    (∃ before after, endReports s = before ++ List.replicate s.fli.kept.length (.fli .reportKept) ++ after) ∧
    endOfStartUp s = State.take { s with phase := .running } (endReports s)) ∧
  (∀ (s : State) (i : Input) (b : Bool) (before after : List (Input × Bool)),
    (s.fli.kept = [] → s.fli.contact i = inputLevel s.fli.inputs i) ∧
    (s.fli.kept = before ++ (i, b) :: after → (∀ c, (i, c) ∉ after) → s.fli.contact i = b) ∧
    ((∀ c, (i, c) ∉ s.fli.kept) → s.fli.contact i = inputLevel s.fli.inputs i)) ∧
  (∀ s : State,
    let opens : Bool := s.cfg.tankFitted && s.fli.inputs.fillKey && s.fli.contact .fillKey &&
      !s.fli.inputs.highLevel && !s.fli.contact .highLevel
    deliver (.fli (.valve true)) s = ({ s with fli := { s.fli with valve := opens } }, []) ∧
    deliver (.fli (.valve false)) s = ({ s with fli := { s.fli with valve := false } }, []))

/-- When a command pulse ends, the output goes idle; a deferred command is issued at once as a new pulse with its
own confirm, which a feedback already at the target completes. No other device changes. The reports are handed on in
the model's order (log 3). That an expiry whose timer stands still is void is the model's reading (log 5). -/
def Obligations.PulseEndIssuesTheDeferred : Prop :=
  ∀ (s : State) (d : Device), s.isUp = true →
    let v := s.fli.dev d
    (v.pulse = none → exec (.pulseEnd d) s = .next s) ∧
    (∀ p, v.pulse = some p → v.deferred = none →
      exec (.pulseEnd d) s = .next { s with fli := s.fli.putDev d { v with pulse := none } }) ∧
    (∀ p c, v.pulse = some p → v.deferred = some c → d = .genset →
      exec (.pulseEnd d) s = .next { s with fli := s.fli.putDev d ⟨some c, none, none⟩ }) ∧
    (∀ p c b, v.pulse = some p → v.deferred = some c → feedback s.fli.inputs d = some b → b ≠ c.target →
      exec (.pulseEnd d) s = .next { s with fli := s.fli.putDev d ⟨some c, none, some c⟩ }) ∧
    (∀ p c, v.pulse = some p → v.deferred = some c → feedback s.fli.inputs d = some c.target →
      exec (.pulseEnd d) s = .next (State.handOn { s with fli := { s.fli.putDev d ⟨some c, none, none⟩ with
        breakerFail := if d = .breaker then false else s.fli.breakerFail } } 1 (confirmedReport d c)))

/-- A command handed to the FLI for a device: absorbed with the deferred slot emptied when it is the running
pulse's, deferred when it is contrary to it; with no pulse running, absorbed when its confirm still runs, else
pulsed at once. Other devices and the inputs stay. The outputs are read off the state (log 39): a command output is
active while its pulse runs, SHARE has the duty S in 1,250ths and 0 with no set fitted, ALERT is active while a
condition of Table 1-5 holds. AUX takes the row of a handover state from step 9 of a start onward, at step 9 that of
the state held then, and is inactive before; nothing else changes it. -/
def Obligations.CommandsToADevice : Prop :=
  (∀ (x : Fli) (d : Device) (c : Sense),
    let v := x.dev d
    let y := (fliCommand x d c).1
    (v.pulse = some c → y = x.putDev d ⟨v.pulse, none, v.confirm⟩ ∧ (fliCommand x d c).2 = []) ∧
    (∀ p, v.pulse = some p → p ≠ c → y = x.putDev d ⟨v.pulse, some c, v.confirm⟩ ∧ (fliCommand x d c).2 = []) ∧
    (v.pulse = none → v.confirm = some c → y = x ∧ (fliCommand x d c).2 = []) ∧
    (v.pulse = none → v.confirm ≠ some c → (y.dev d).pulse = some c ∧ (y.dev d).deferred = none ∧
      ((y.dev d).confirm = if feedback x.inputs d = some (!c.target) then some c else none)) ∧
    (∀ e, e ≠ d → y.dev e = x.dev e) ∧ y.inputs = x.inputs ∧ y.valve = x.valve ∧ y.aux = x.aux) ∧
  (∀ (s : State) (d : Device) (c : Sense), s.commandOutput d c = true ↔ (s.fli.dev d).pulse = some c) ∧
  (∀ s : State, s.shareOutput = (if s.cfg.setFitted then s.du.share else 0) ∧
    (s.alertOutput = true ↔ s.phase = .unusable ∨ s.configClamped = true ∨ s.retainedDamaged = true ∨
      s.lc.duplicate = true ∨ s.pt.tableFull = true ∨ s.cc.noIncoming = true ∨ s.cc.partnerLost = true ∨
      s.fli.breakerFail = true ∨ ∃ n, s.cfg.fitted.get n = true ∧ (s.sc.recs.get n).failed.isSome = true)) ∧
  (∀ (s : State) (st : Handover),
    let row := s.cfg.aux.getD st.code 0
    (s.phase = .running ∨ (∃ k, s.phase = .starting k ∧ 9 ≤ k) →
      deliver (.fli (.auxRow st)) s = ({ s with fli := { s.fli with aux := row } }, [])) ∧
    ((∀ k, s.phase = .starting k → k < 9) → s.phase ≠ .running → deliver (.fli (.auxRow st)) s = (s, [])) ∧
    (∀ (inp : StartInputs), s.cc.state = st → (startStep 9 inp s).fli.aux = row ∧ (startStep 1 inp s).fli.aux = 0) ∧
    (∀ m : FliMsg, (∀ w, m ≠ .auxRow w) → (deliver (.fli m) s).1.fli.aux = s.fli.aux))

/-- A confirm limit that expires with its confirm running fails the command: the requester is told, and for the
breaker the breaker-failure condition is raised; with no confirm running it is void. A feeder whose command has
failed is FAILED with the cause of the command in flight, its position as it was, until an uncommanded change of its
feedback. A confirmed FON closes the feeder, takes it off the shed list and rotates it; a confirmed FOFF opens it,
and an overload's enters it. A hand closing takes it off the list and rotates it, a hand opening changes its
position alone, and a FAILED feeder leaves FAILED as Table 5-2 says. A confirm with no such command in flight takes
the position alone, the model's reading (log 33). The reports are handed on in the model's order (log 3). -/
def Obligations.ConfirmLimitFailsTheCommand : Prop :=
  (∀ (s : State) (d : Device), s.isUp = true →
    ((s.fli.dev d).confirm = none → exec (.confirmLimitExpiry d) s = .next s) ∧
    (∀ c, (s.fli.dev d).confirm = some c →
      exec (.confirmLimitExpiry d) s =
        .next (State.handOn { s with fli := { s.fli.putDev d { s.fli.dev d with confirm := none } with
          breakerFail := if d = .breaker then true else s.fli.breakerFail } } 1 (failedReport d c)))) ∧
  (∀ (c : Sc) (n : FeederId) (k : Sense),
    let r := c.recs.get n
    let y := (scFailed c n k).1
    ((y.recs.get n).closed = r.closed) ∧ (∀ m, m ≠ n → y.recs.get m = c.recs.get m) ∧
    (r.inFlight = some .fon → k = .on →
      y.status n = .failed ∧ (y.recs.get n).failed = some .restore ∧ (y.recs.get n).inFlight = none ∧
        y.shedList = c.shedList) ∧
    (r.inFlight = some .foffOverload → k = .off →
      y.status n = .failed ∧ (y.recs.get n).failed = some .overload ∧ (y.recs.get n).inFlight = none ∧
        y.listed n = false) ∧
    (r.inFlight = some .foffDeadBus → k = .off →
      y.status n = .failed ∧ (y.recs.get n).failed = some .deadBus ∧ (y.recs.get n).inFlight = none ∧
        y.listed n = false) ∧
    (∀ b, let z := (scUncommanded y n b).1
      (z.recs.get n).failed = none ∧ (z.recs.get n).closed = b)) ∧
  (∀ (c : Sc) (n : FeederId),
    let r := c.recs.get n
    let off := c.shedList.filter fun e => e.feeder != n
    let entered (why : ShedCause) : List ShedEntry :=
      if c.listed n then c.shedList.map fun e => if e.feeder = n then ⟨n, why⟩ else e else c.shedList ++ [⟨n, why⟩]
    let rotated (y : Sc) : Prop := ∀ q, y.rotation q =
      if n ∈ c.rotation q then (c.rotation q).filter (· != n) ++ [n] else c.rotation q
    let still (y : Sc) : Prop := ∀ q, y.rotation q = c.rotation q
    let moved (y : Sc) (closed : Bool) (failed : Option FailedCause) : Prop :=
      (∀ m, m ≠ n → y.recs.get m = c.recs.get m) ∧ (y.recs.get n).closed = closed ∧ (y.recs.get n).failed = failed ∧
        (y.recs.get n).lastKw = r.lastKw ∧ (y.recs.get n).energised = r.energised
    (∀ k, let y := (scConfirmed c n k).1
      moved y (decide (k = .on)) r.failed ∧
      (k = .on → r.inFlight = some .fon → (y.recs.get n).inFlight = none ∧ y.shedList = off ∧ rotated y) ∧
      (k = .on → r.inFlight ≠ some .fon → (y.recs.get n).inFlight = r.inFlight ∧ y.shedList = c.shedList ∧ still y) ∧
      (k = .off → r.inFlight = some .foffOverload → (y.recs.get n).inFlight = none ∧ still y ∧
        y.shedList = if c.listed n then c.shedList else c.shedList ++ [⟨n, .overload⟩]) ∧
      (k = .off → r.inFlight = some .foffDeadBus →
        (y.recs.get n).inFlight = none ∧ y.shedList = c.shedList ∧ still y) ∧
      (k = .off → r.inFlight = none ∨ r.inFlight = some .fon →
        (y.recs.get n).inFlight = r.inFlight ∧ y.shedList = c.shedList ∧ still y)) ∧
    (∀ b, let y := (scUncommanded c n b).1
      moved y b none ∧ (y.recs.get n).inFlight = r.inFlight ∧
      (r.failed = none → b = true → y.shedList = off ∧ rotated y) ∧
      (r.failed = none → b = false → y.shedList = c.shedList ∧ still y) ∧
      (r.failed = some .overload → b = false → y.shedList = entered .overload ∧ still y) ∧
      (r.failed = some .deadBus → b = false → y.shedList = entered .deadBus ∧ still y) ∧
      (r.failed = some .restore → b = false → y.shedList = c.shedList ∧ still y) ∧
      (r.failed = some .overload ∨ r.failed = some .deadBus → b = true → y.shedList = c.shedList ∧ rotated y) ∧
      (r.failed = some .restore → b = true → y.shedList = off ∧ rotated y)))

/-! ### Frames, tool commands -/

/-- A received frame: discarded when group or to field do not fit, when a station kind comes from no station or for
all groups, or when its payload has not the length of its kind; DUPLICATE when it carries the own number; else
handed to the unit that owns its kind. In each case the receiver stands between frames. A readback frame is
discarded without tests, even when it carries the own number. When the readback mark ends is the model's reading
(log 15). The reports are handed on in the model's order (log 3). -/
def Obligations.FramesAreTestedAndDispatched : Prop :=
  ∀ (k : Kind) (h : Header) (p : List Byte) (c : Instr) (s : State), frameCommand k h p = some c →
    s.isUp = true → s.lc.enabled = true →
    let readback : Bool := s.lc.rx.readsBack h.sender.toNat s.cfg.station
    (readback = true → s.lc.sending = true → exec c s = .next s) ∧
    (readback = true → s.lc.sending = false → exec c s = .next s.heard) ∧
    (s.lc.rx.own = true → s.lc.rx.whole = false ∨ h.sender.toNat = s.cfg.station → readback = true) ∧
    (s.lc.rx.own = false ∨ (s.lc.rx.whole = true ∧ h.sender.toNat ≠ s.cfg.station) → readback = false) ∧
    (readback = false → addressed s h = false → exec c s = .next s.heard) ∧
    (readback = false → addressed s h = true → h.sender.toNat = s.cfg.station → s.lc.duplicate = true →
      exec c s = .next s.heard) ∧
    (readback = false → addressed s h = true → h.sender.toNat = s.cfg.station → s.lc.duplicate = false →
      ∃ l : Lc, exec c s = .next (State.handOn { s with lc := l } 1 [.du .duplicate]) ∧ l.duplicate = true ∧
        l.queue = s.lc.queue.filter (·.kind == .state) ∧ l.answer = none) ∧
    (Accepts s h → (k.stationKind = true ∧ ¬ FromStation h) ∨ (∃ n, k.fixedLength = some n ∧ p.length ≠ n) →
      exec c s = .next s.heard) ∧
    (Accepts s h → (k.stationKind = true → FromStation h) → (∀ n, k.fixedLength = some n → p.length = n) →
      exec c s = .next (s.heard.handOn 1 (frameReport h k p)))

/-- A received frame, given by its bits, that has a bad character, or fails the tests of R163, or that ends at the
first idle gap after a start, so that its beginning was not seen, reaches no unit and sets no flag: the receiver
stands between frames, nothing else changes. The characters a station sends for a frame of at most 48 payload bytes
pass the tests, and give the frame back. A frame so sent by another station is the command of its kind. A character
is sent as a start bit, eight data bits least significant first, a parity bit that makes the number of ones odd, and
two stop bits; it is bad by a wrong parity bit or a first stop bit at the start level, and the next start bit is
looked for from the end of the first stop bit. That a stop bit and a data bit 1 are the same level is the model's
reading (log 61). What the first idle gap keeps from the tests is the model's reading (log 14). -/
def Obligations.BadFramesAreDiscarded : Prop :=
  (∀ (first following : List Bool) (s : State), s.isUp = true → s.lc.enabled = true → s.lc.sending = false →
    let got := receiveChars (first ++ following)
    let chars := got.map (·.1)
    let n := (byteAt chars 5).toNat
    (s.lc.rx.waitGap = true ∨ (∃ x ∈ got, x.2 = true) ∨ 56 < chars.length ∨ chars.length < 8 ∨
      byteAt chars 0 ≠ 0xC3 ∨ 48 < n ∨ chars.length ≠ 8 + n ∨
      (crc (chars.take (6 + n))).toNat ≠ fieldAt chars (6 + n) 2) →
    exec (.frameDiscarded first following) s = .next s.heard) ∧
  (∀ (f : TxFrame) (station : Nat), f.payload.length ≤ 48 →
    let got := receiveChars ((f.characters station).flatMap sentBits)
    got = (f.characters station).map (fun c => (c, false)) ∧
    judgeChars (Rx.between.filled got) =
      some (⟨BitVec.ofNat 8 station, BitVec.ofNat 8 f.group, BitVec.ofNat 8 f.dest⟩, BitVec.ofNat 8 f.kind.code,
        f.payload)) ∧
  (∀ (k : Kind) (h : Header) (p : List Byte) (c : Instr) (s : State), frameCommand k h p = some c → s.isUp = true →
    s.lc.enabled = true → s.lc.rx.waitGap = false → p.length ≤ 48 →
    let f : TxFrame :=
      { kind := k, group := h.group.toNat, dest := h.dest.toNat, payload := p, attempts := 0, answerOf := none }
    ∀ first following, first ++ following = (f.characters h.sender.toNat).flatMap sentBits →
      exec (.frameDiscarded first following) s = exec c s) ∧
  (∀ (c : Byte) (rest : List Bool),
    let d : List Bool := [c.getLsbD 0, c.getLsbD 1, c.getLsbD 2, c.getLsbD 3, c.getLsbD 4, c.getLsbD 5, c.getLsbD 6,
      c.getLsbD 7]
    (∃ parity, sentBits c = [false] ++ d ++ [parity, true, true] ∧ (d ++ [parity]).count true % 2 = 1) ∧
    receiveBits ((sentBits c).take 11 ++ rest) = (c, false) :: receiveBits rest ∧
    receiveBits (true :: rest) = receiveBits rest ∧
    (∀ parity stop, ∃ bad, receiveBits ([false] ++ d ++ [parity, stop] ++ rest) = (c, bad) :: receiveBits rest ∧
      (bad = true ↔ (d ++ [parity]).count true % 2 = 0 ∨ stop = false)))

/-- A tool command is taken only when sent to the own number with no restart pending, and is then judged in turn:
NOT PERMITTED from a sender outside 28 to 31, UNKNOWN for a sub-kind the part does not know, RANGE for another
parameter length than its sub-kind has, LOCKED when it alters and LOCK is on. A command refused does nothing else.
So is a command brought by the row of unknown tool commands. A command whose sub-kind is known is judged as that
one, whichever row brought it (log 44). -/
def Obligations.ToolCommandsAreJudged : Prop :=
  (∀ (k : SubKind) (h : Header) (tag : Byte) (params : List Byte) (s : State), Accepts s h →
    let c := toolCommandOf k h tag params
    let ask := askOf h k tag
    (h.dest.toNat ≠ s.cfg.station ∨ s.lc.restart ≠ .none → exec c s = .next s.heard) ∧
    (h.dest.toNat = s.cfg.station → s.lc.restart = .none → ¬ FromTool h →
      exec c s = .next (s.heard.answered ask .notPermitted [])) ∧
    (Commands s h → params.length ≠ k.paramLength → exec c s = .next (s.heard.answered ask .range [])) ∧
    (Commands s h → params.length = k.paramLength → k.altering = true → s.fli.inputs.lock = true →
      exec c s = .next (s.heard.answered ask .locked []))) ∧
  (∀ (h : Header) (sub tag : Byte) (params : List Byte) (s : State), Commands s h → SubKind.ofByte? sub = none →
    exec (.unknownToolCommand h sub tag params) s =
      .next (s.heard.answered ⟨h.sender.toNat, sub, tag⟩ .unknown [])) ∧
  (∀ (k : SubKind) (h : Header) (sub tag : Byte) (params : List Byte) (s : State), SubKind.ofByte? sub = some k →
    exec (.unknownToolCommand h sub tag params) s = exec (toolCommandOf k h tag params) s) ∧
  (∀ (h : Header) (sub tag : Byte) (params : List Byte) (s : State), Accepts s h →
    let c : Instr := .unknownToolCommand h sub tag params
    (h.dest.toNat ≠ s.cfg.station ∨ s.lc.restart ≠ .none → exec c s = .next s.heard) ∧
    (h.dest.toNat = s.cfg.station → s.lc.restart = .none → ¬ FromTool h →
      exec c s = .next (s.heard.answered ⟨h.sender.toNat, sub, tag⟩ .notPermitted [])))

/-- The four queries are answered and change nothing but the line: TANK QUERY and JOURNAL QUERY with the book and
the entries of the moment, ACCOUNT and STATEMENT QUERY with the slot of the code; RANGE for a code outside 1 to
4,095, STATE for one no slot holds and for a cell without a tank. LOCK does not matter. The journal entries are the
oldest one at or above the number asked for and the three behind it. The layouts of the answers are the model's
where the spec gives none (logs 20 and 21). -/
def Obligations.QueriesAreAnswered : Prop :=
  (∀ (h : Header) (tag : Byte) (params : List Byte) (s : State), Commands s h →
    let code := beNat params
    let slot := s.bu.slots.find? (·.tenant == code)
    (params.length = 0 →
      exec (.tankQuery h tag params) s = .next (if s.cfg.tankFitted
        then s.heard.answered (askOf h .tankQuery tag) .done (tankData s.fu s)
        else s.heard.answered (askOf h .tankQuery tag) .state [])) ∧
    (params.length = 4 →
      exec (.journalQuery h tag params) s =
        .next (s.heard.answered (askOf h .journalQuery tag) .done (journalData s.bu (beNat params)))) ∧
    (params.length = 2 → (code < 1 ∨ 4095 < code) →
      exec (.accountQuery h tag params) s = .next (s.heard.answered (askOf h .accountQuery tag) .range []) ∧
      exec (.statementQuery h tag params) s = .next (s.heard.answered (askOf h .statementQuery tag) .range [])) ∧
    (params.length = 2 → 1 ≤ code → code ≤ 4095 → slot = none →
      exec (.accountQuery h tag params) s = .next (s.heard.answered (askOf h .accountQuery tag) .state []) ∧
      exec (.statementQuery h tag params) s = .next (s.heard.answered (askOf h .statementQuery tag) .state [])) ∧
    (∀ x, params.length = 2 → 1 ≤ code → code ≤ 4095 → slot = some x →
      exec (.accountQuery h tag params) s =
        .next (s.heard.answered (askOf h .accountQuery tag) .done (accountData s.bu x)) ∧
      exec (.statementQuery h tag params) s =
        .next (s.heard.answered (askOf h .statementQuery tag) .done (x.statements.flatMap statementBytes)))) ∧
  (∀ (l : List JournalEntry) (n : Nat), (∀ e ∈ l, e.number < n) → journalFrom l n = []) ∧
  (∀ (older : List JournalEntry) (e : JournalEntry) (newer : List JournalEntry) (n : Nat),
    (∀ x ∈ older, x.number < n) → n ≤ e.number → journalFrom (older ++ e :: newer) n = e :: newer.take 3)

/-- RESTART is answered DONE and pending: until its ANSWER leaves the queue, or ready at once when the queue refuses
it. It changes nothing but the line. The serial that tells whose ANSWER leaves the queue is the model's (log 45). -/
def Obligations.RestartIsAnswered : Prop :=
  ∀ (h : Header) (tag : Byte) (s : State), Commands s h → s.fli.inputs.lock = false →
    let r := giveAnswer s.heard.lc s.cfg.station (askOf h .restart tag) .done []
    exec (.restart h tag []) s =
      .next { s with lc := { r.1 with restart := if r.2 then .waiting s.lc.answerSeq else .ready } } ∧
    (s.lc.duplicate = true → r.2 = false) ∧
    (s.lc.duplicate = false → s.lc.queue.length < 8 → r.2 = true) ∧
    (s.lc.duplicate = false → 8 ≤ s.lc.queue.length → r.2 = false)

/-! ### Peer view and clock -/

/-- The heartbeat timer's expiry hands the LC a STATE frame of the values of that moment and restarts the timer;
nothing else changes. A stopped timer does not expire. So does an early report of a change, from the step of a start
that enables the LC on, and a change of SHOW, ahead of the group figures. A change of set state, breaker position,
threshold state or handover state makes such a report. The reports are handed on in the model's order (log 3). That
an expiry whose timer stands still is void is the model's reading (log 5). -/
def Obligations.HeartbeatsSendState : Prop :=
  (∀ s : State, s.isUp = true →
     (s.pt.heartbeat = none → exec .heartbeatExpiry s = .next s) ∧
     (s.pt.heartbeat.isSome = true → exec .heartbeatExpiry s =
       .next { s with pt := { s.pt with heartbeat := some s.cfg.heartbeat }
                      lc := (offerFrame s.lc s.cfg.station
                        { kind := .state, group := s.cfg.group, dest := 0, payload := statePayload s, attempts := 0,
                          answerOf := none }).1 })) ∧
  (∀ s : State,
    let frame : Report := .lc (.offer
      { kind := .state, group := s.cfg.group, dest := 0, payload := statePayload s, attempts := 0, answerOf := none })
    let sent : Pt := { s.pt with heartbeat := some s.cfg.heartbeat }
    let new := figuresOf s s.pt.entries
    let early := s.phase = .running ∨ ∃ k, s.phase = .starting k ∧ 8 ≤ k
    (early → deliver (.pt .reportable) s = ({ s with pt := sent }, [frame])) ∧
    (¬ early → deliver (.pt .reportable) s = (s, [])) ∧
    deliver (.pt .showChanged) s =
      ({ s with pt := { sent with figs := new } }, frame :: figureChanges s.pt.figs new) ∧
    (∀ f, deliver (.lc (.offer f)) s = (s.offered f, []))) ∧
  (∀ a b : SetState, .pt .reportable ∈ moveReports a b) ∧
  (∀ a b : Bool, .pt .reportable ∈ positionReports a b ↔ a ≠ b) ∧
  (∀ a b : Threshold, .pt .reportable ∈ thresholdReports a b ↔ a ≠ b) ∧
  (∀ a b : Handover, .pt .reportable ∈ enteringReports a b)

/-- A STATE payload, read as a peer reads it, gives back the values it was built from, where they lie in their
ranges; without a set or a tank the fixed values. -/
def Obligations.StateFramesCarryTheOwnersValues : Prop :=
  ∀ s : State,
    500 ≤ s.cfg.heartbeat → s.cfg.heartbeat ≤ 2000 → s.cfg.heartbeat % 100 = 0 → 10 ≤ s.cfg.rating →
    s.cfg.rating ≤ 2000 → s.pcu.se.figure ≤ 65535 → s.du.share ≤ 1250 → s.fu.hours ≤ 9999 → s.cc.partner ≤ 27 →
    s.sc.summary.cls ≠ some .protectedClass → s.sc.summary.count ≤ 4 → s.pt.clock < 4294967296 →
    let p := statePayload s
    let f := PeerFields.ofPayload p
    p.length = 44 ∧ f.setFitted = s.cfg.setFitted ∧ f.tankFitted = s.cfg.tankFitted ∧
    f.closedCap = s.cfg.closedCap ∧ f.heartbeat = s.cfg.heartbeat ∧ f.showInput = s.fli.inputs.showSwitch ∧
    f.handover = s.cc.state ∧ f.partner = s.cc.partner ∧ f.shedClass = s.sc.summary.cls ∧
    f.shedCount = s.sc.summary.count ∧ f.clock = s.pt.clock ∧ f.clockValid = s.pt.clockValid ∧
    f.alerts = s.alertFlags ∧
    (s.cfg.setFitted = true → f.setState = s.du.state ∧ f.onBus = s.du.breaker ∧ f.rating = s.cfg.rating ∧
      f.output = s.pcu.se.figure ∧ f.share = s.du.share ∧ f.runHours = min 65535 (s.pt.runSeconds / 3600)) ∧
    (s.cfg.setFitted = false → f.setState = .stopped ∧ f.onBus = false ∧ f.rating = 0 ∧ f.output = 0 ∧
      f.share = 0 ∧ f.runHours = 0) ∧
    (s.cfg.tankFitted = true → f.hours = s.fu.hours ∧ f.threshold = s.fu.threshold) ∧
    (s.cfg.tankFitted = false → f.hours = 9999 ∧ f.threshold = .normal)

/-- A STATE frame taken enters or replaces its sender's entry with the clamped fields and the age timer of its
period; a full table turns an unknown sender away and sets TABLE FULL; a frame that fails a test changes nothing. -/
def Obligations.StateFramesEnterThePeerTable : Prop :=
  ∀ (h : Header) (p : List Byte) (s : State), Accepts s h →
    let n := h.sender.toNat
    let fails := h.group = 0 ∨ p.length ≠ 44 ∨ n < 1 ∨ 27 < n ∨ fieldAt p 0 1 ≠ n ∨ fieldAt p 1 1 ≠ h.group.toNat
    let f := PeerFields.ofPayload p
    (fails → exec (.stateReceived h p) s = .next s.heard) ∧
    (¬ fails → s.pt.find n = none → 15 ≤ s.pt.entries.length →
      exec (.stateReceived h p) s = .next { s.heard with pt := { s.pt with tableFull := true } }) ∧
    (¬ fails → ((s.pt.find n).isSome = true ∨ s.pt.entries.length < 15) →
      ∃ t, exec (.stateReceived h p) s = .next t ∧ t.pt.find n = some ⟨n, f, 3 * f.heartbeat + 200⟩ ∧
        (∀ m, m ≠ n → t.pt.find m = s.pt.find m) ∧
        t.pt.entries.length = s.pt.entries.length + (if (s.pt.find n).isSome then 0 else 1) ∧
        t.pt.tableFull = s.pt.tableFull ∧ t.pcu = s.pcu ∧ t.fli.inputs = s.fli.inputs)

/-- The clock field of a STATE frame taken: an invalid clock becomes valid at a valid one at or above the floor; a
valid clock adopts one ahead by 2 s or more; each setting begins a full second; in every other case the clock stays.
-/
def Obligations.StateFramesSetTheClock : Prop :=
  ∀ (h : Header) (p : List Byte) (s : State), Accepts s h → h.group ≠ 0 → p.length = 44 → 1 ≤ h.sender.toNat →
    h.sender.toNat ≤ 27 → fieldAt p 0 1 = h.sender.toNat → fieldAt p 1 1 = h.group.toNat →
    ((s.pt.find h.sender.toNat).isSome = true ∨ s.pt.entries.length < 15) →
    let v := fieldAt p 23 4
    let valid := fieldAt p 27 1 ≠ 0
    ∃ t, exec (.stateReceived h p) s = .next t ∧
      (s.pt.clockValid = false → valid → s.pt.floor ≤ v →
        t.pt.clock = v ∧ t.pt.clockValid = true ∧ t.pt.second = some 1000) ∧
      (s.pt.clockValid = true → valid → s.pt.clock + 2 ≤ v →
        t.pt.clock = v ∧ t.pt.clockValid = true ∧ t.pt.second = some 1000) ∧
      ((¬ valid ∨ (s.pt.clockValid = false ∧ v < s.pt.floor) ∨ (s.pt.clockValid = true ∧ v < s.pt.clock + 2)) →
        t.pt.clock = s.pt.clock ∧ t.pt.clockValid = s.pt.clockValid ∧ t.pt.second = s.pt.second)

/-- A peer's age timer expires: its entry leaves the table, the others stay, and TABLE FULL clears as the table
holds fewer than 15. Without an entry nothing changes (the model's choice, log 38). -/
def Obligations.SilentPeersAreRemoved : Prop :=
  ∀ (n : Nat) (s : State), s.isUp = true →
    (s.pt.find n = none → exec (.peerAgeExpiry n) s = .next s) ∧
    ((s.pt.find n).isSome = true → ∃ t, exec (.peerAgeExpiry n) s = .next t ∧ t.pt.find n = none ∧
      (∀ m, m ≠ n → t.pt.find m = s.pt.find m) ∧ (s.pt.entries.length ≤ 15 → t.pt.tableFull = false) ∧
      t.pt.clock = s.pt.clock ∧ t.pt.clockValid = s.pt.clockValid ∧ t.fu = s.fu ∧ t.bu = s.bu ∧ t.store = s.store)

/-- The second timer steps a valid clock by 1 and restarts; at its largest value the clock stops. A second of run
hours is counted while RUNNING is active, from the end of start-up. That an expiry whose timer stands still is void
is the model's reading (log 5). -/
def Obligations.SecondsStepTheClock : Prop :=
  (∀ s : State, s.isUp = true →
    (s.pt.clockValid = false ∨ s.pt.second = none → exec .secondTimerExpiry s = .next s) ∧
    (s.pt.clockValid = true → s.pt.second.isSome = true → s.pt.clock < 4294967295 →
      ∃ t, exec .secondTimerExpiry s = .next t ∧ t.pt.clock = s.pt.clock + 1 ∧ t.pt.clockValid = true ∧
        t.pt.second = some 1000 ∧ t.pt.entries = s.pt.entries ∧ t.pcu = s.pcu ∧ t.fli.inputs = s.fli.inputs) ∧
    (s.pt.clockValid = true → s.pt.second.isSome = true → 4294967295 ≤ s.pt.clock →
      exec .secondTimerExpiry s = .next { s with pt := { s.pt with second := none } })) ∧
  (∀ s : State, s.phase = .running → exec .runSecond s =
    .next { s with pt := { s.pt with
      runSeconds := if s.fli.inputs.running then s.pt.runSeconds + 1 else s.pt.runSeconds } })

/-- TIME SET: refused with RANGE below the own clock or, while it is invalid, below the floor; at the present value
DONE with the second begun anew; above it, or valid at or above the floor, the clock is set. -/
def Obligations.TimeSetIsJudged : Prop :=
  ∀ (h : Header) (tag : Byte) (params : List Byte) (s : State), Commands s h → params.length = 4 →
    s.fli.inputs.lock = false →
    let v := beNat params
    let ask := askOf h .timeSet tag
    ((s.pt.clockValid = true ∧ v < s.pt.clock ∨ s.pt.clockValid = false ∧ v < s.pt.floor) →
      exec (.timeSet h tag params) s = .next (s.heard.answered ask .range [])) ∧
    (s.pt.clockValid = true → v = s.pt.clock →
      exec (.timeSet h tag params) s =
        .next (State.answered { s.heard with pt := { s.pt with second := some 1000 } } ask .done [])) ∧
    ((s.pt.clockValid = true ∧ s.pt.clock < v ∨ s.pt.clockValid = false ∧ s.pt.floor ≤ v) →
      ∃ t, exec (.timeSet h tag params) s = .next t ∧ t.pt.clock = v ∧ t.pt.clockValid = true ∧
        t.pt.second = some 1000 ∧ t.pt.entries = s.pt.entries ∧ t.fli.inputs = s.fli.inputs ∧ t.pcu = s.pcu)

/-- Once valid, the clock stays valid and never decreases until the next start, and nor does the floor while it is
at or below the clock. -/
def Obligations.ValidClocksNeverDecrease : Prop :=
  ∀ (c : Instr) (s t : State), c.startsOrStops = false → exec c s = .next t → s.pt.clockValid = true →
    t.pt.clockValid = true ∧ s.pt.clock ≤ t.pt.clock ∧
    (s.pt.floor ≤ s.pt.clock → s.pt.floor ≤ t.pt.floor ∧ t.pt.floor ≤ t.pt.clock)

/-! ### The set -/

/-- The set state follows the lines: RUNNING, READY, FAULT and the breaker's position, changed by command or by hand
(R39, R41 to R43). Entry to FAULT hands TRIP over with the breaker closed or closing, but not for TRIP FAIL, and
STOP for CLOSE FAIL with RUNNING active. FAULT is left as RUNNING or FAULT goes inactive, or the breaker opens, with
the three inactive together. What else ends at entry to FAULT, the stop repeat timer, a held start and a recovery's
escalation, is the model's reading (logs 26 and 31). FAULT is left at changes alone (log 25), and a breaker found
closed by hand in FAULT is not tripped (log 41). That the CC is not told of the TRIP handed over at entry to FAULT
is the model's choice (log 59), as is the order of the reports in each list (log 3), and that RUNNING going active
in STOPPED is a hand start whatever START was issued before (log 62). -/
def Obligations.SetFollowsItsLines : Prop :=
  ∀ s : State,
    let d := s.du
    let after (m : DuMsg) : Du := (deliver (.du m) s).1.du
    let told (m : DuMsg) : List Report := (deliver (.du m) s).2
    let trip (closed : Bool) : List Report :=
      if closed = true ∨ s.fli.closing = true then [.fli (.command .breaker .off)] else []
    let stop : List Report := if s.fli.inputs.running then [.fli (.command .genset .off)] else []
    let moved := moveReports d.state .fault
    (d.state = .cranking → s.fli.inputs.ready = false → (after (.running true)).state = .warming) ∧
    (d.state = .cranking → s.fli.inputs.ready = true → (after (.running true)).state = .ready) ∧
    (d.state = .warming ∨ d.state = .ready ∨ d.state = .cooling → (after (.running false)).state = .stopped) ∧
    (d.state = .onbus ∨ d.state = .rampdown → after (.running false) = d.faulted .runLost) ∧
    (d.state = .warming → d.breaker = false → (after (.readyInput true)).state = .ready) ∧
    (d.state = .ready → d.breaker = false → (after (.readyInput false)).state = .warming) ∧
    (d.breaker = true → ∀ b, after (.readyInput b) = d) ∧
    (d.state = .stopped → (after (.running true)).origin = some .hand ∧
      (s.fli.inputs.ready = true → (after (.running true)).state = .ready) ∧
      (s.fli.inputs.ready = false →
        (after (.running true)).state = .warming ∧ (after (.running true)).startTimer = some 120000)) ∧
    (d.state ≠ .fault → after (.faultInput true) = d.faulted .faultInput) ∧
    (d.state = .fault → after (.faultInput true) = { d with cause := some .faultInput }) ∧
    (d.state ≠ .fault → after (.failed .on) = ({ d with breaker := s.fli.inputs.brk } : Du).faulted .closeFail ∧
      after (.failed .off) = ({ d with breaker := s.fli.inputs.brk } : Du).faulted .tripFail) ∧
    (d.state = .warming ∨ d.state = .ready ∨ d.state = .cooling →
      (after (.confirmed .on)).state = .onbus ∧ (after (.uncommanded true)).state = .onbus ∧
        (after (.confirmed .on)).breaker = true ∧ (after (.confirmed .on)).join = none ∧
        (after (.confirmed .on)).cooldown = none ∧ (after (.confirmed .on)).stopRepeat = none) ∧
    (∀ m : DuMsg, m = .confirmed .on ∨ m = .uncommanded true →
      (d.state = .stopped ∨ d.state = .cranking →
        after m = ({ d with breaker := true } : Du).faulted .runLost ∧
          Report.fli (.command .breaker .off) ∈ (deliver (.du m) s).2) ∧
      (d.state = .onbus ∨ d.state = .rampdown ∨ d.state = .fault → after m = { d with breaker := true })) ∧
    (d.state = .fault → Report.fli (.command .breaker .off) ∈ (deliver (.du (.confirmed .on)) s).2) ∧
    (∀ m : DuMsg, m = .confirmed .off ∨ m = .uncommanded false →
      (after m).breaker = false ∧
      (d.state = .onbus ∨ d.state = .rampdown →
        (after m).state = (if s.fli.inputs.running then .cooling else .stopped) ∧ (after m).ramp = none ∧
        (s.fli.inputs.running = true → (after m).cooldown = some (s.cfg.cooldown * 1000))) ∧
      (d.state = .fault → (after m).state =
        if s.fli.inputs.fault = false ∧ s.fli.inputs.running = false then .stopped else .fault) ∧
      (d.state ≠ .onbus → d.state ≠ .rampdown → d.state ≠ .fault → after m = { d with breaker := false })) ∧
    (d.state = .fault → s.fli.inputs.fault = false → s.fli.inputs.running = false → d.breaker = false →
      (after (.faultInput false)).state = .stopped ∧ (after (.faultInput false)).cause = none ∧
        (after (.faultInput false)).origin = none) ∧
    (d.state ≠ .fault → told (.faultInput true) = trip d.breaker ++ moved) ∧
    (d.state = .onbus ∨ d.state = .rampdown → told (.running false) = trip d.breaker ++ moved) ∧
    (d.state ≠ .fault → told (.failed .on) = trip s.fli.inputs.brk ++ stop ++ moved ∧
      told (.failed .off) = moved ++ [.cc .tripFail]) ∧
    (d.state = .stopped ∨ d.state = .cranking → ∀ m : DuMsg, m = .confirmed .on ∨ m = .uncommanded true →
      told m = .fli (.command .breaker .off) :: moved) ∧
    (d.state = .fault → told (.faultInput true) = []) ∧
    (d.state = .fault → ∀ m : DuMsg, m = .running false ∨ m = .faultInput false →
      let out := s.fli.inputs.fault = false ∧ s.fli.inputs.running = false ∧ d.breaker = false
      (out → (after m).state = .stopped ∧ (after m).cause = none ∧ (after m).origin = none ∧
        (d.heldStart = none → told m = moveReports .fault .stopped)) ∧
      (¬ out → after m = d ∧ told m = []))

/-- The start timer expires in CRANKING or WARMING: FAULT with START FAIL, STOP with RUNNING active, TRIP with the
breaker closed or closing, START FAIL to the CC, a START INTENT outstanding void; what else ends at entry to FAULT
is the model's reading (logs 26 and 31). In another state it is void. A start request in FAULT is refused. In every
other state a start request is taken as R38 gives; of two held in COOLING after STOP the newer one's origin stands,
and the held one is taken at STOPPED (the model's choices, logs 27 and 47). The reports are handed on in the model's
order (log 3). That an expiry whose timer stands still is void is the model's reading (log 5). -/
def Obligations.StartFailureFaultsTheSet : Prop :=
  (∀ s : State, s.isUp = true →
     (s.du.startTimer = none ∨ (s.du.state ≠ .cranking ∧ s.du.state ≠ .warming) →
       exec .startTimerExpiry s = .next s) ∧
     (s.du.startTimer.isSome = true → (s.du.state = .cranking ∨ s.du.state = .warming) →
       exec .startTimerExpiry s = .next (State.handOn { s with du := s.du.faulted .startFail } 1
         ((if s.du.breaker ∨ s.fli.closing then [.fli (.command .breaker .off)] else []) ++
          (if s.fli.inputs.running then [.fli (.command .genset .off)] else []) ++ moveReports s.du.state .fault ++
          [.cc .startFail])) ∧ (s.du.faulted .startFail).state = .fault ∧
       (s.du.faulted .startFail).cause = some .startFail ∧ (s.du.faulted .startFail).startIntent = none) ∧
     (s.du.state = .fault → deliver (.du .reqStart) s = (s, [.cc .startFail]) ∧
       ∀ o, o ≠ .call → startRequest s.du s o = quiet s.du)) ∧
  (∀ (s : State) (o : Origin),
    let d := s.du
    let x := startRequest d s o
    let cranked (p : Origin) : Act Du :=
      ({ d with state := .cranking, origin := some p, startTimer := some 120000, heldStart := none },
        .fli (.command .genset .on) :: moveReports .stopped .cranking)
    let e : Du := { d with cooldown := none, origin := some o }
    deliver (.du .reqStart) s = ({ s with du := (startRequest d s .call).1 }, (startRequest d s .call).2) ∧
    (d.state = .stopped → x = cranked o) ∧
    (d.state = .cranking ∨ d.state = .warming ∨ d.state = .ready → x =
      ({ d with origin := if d.origin = none ∨ d.origin = some .hand then some o else d.origin }, [])) ∧
    (d.state = .cooling → d.cooldown.isSome = true →
      (s.fli.inputs.ready = true → x = ({ e with
          state := .ready, startTimer := none
          joinTimer := if d.join.isSome = true ∧ d.joinTimer = none then some 60000 else d.joinTimer },
        moveReports .cooling .ready ++ [.du .tryJoin])) ∧
      (s.fli.inputs.ready = false → x =
        ({ e with state := .warming, startTimer := some 120000 }, moveReports .cooling .warming))) ∧
    (d.state = .cooling → d.cooldown = none → x = ({ d with heldStart := some o }, [])) ∧
    (d.state = .onbus ∨ d.state = .rampdown → x = (d, [])) ∧
    (∀ p, d.heldStart = some p →
      (d.state = .cooling → deliver (.du (.running false)) s = ({ s with du := { d with
          state := .stopped, origin := none, cause := none, share := 0, tripIssued := false, startTimer := none
          cooldown := none, ramp := none, stopRepeat := none } }, moveReports .cooling .stopped ++ [.du .takeHeld])) ∧
      (d.state = .stopped → deliver (.du .takeHeld) s = ({ s with du := (cranked p).1 }, (cranked p).2))) ∧
    (d.heldStart = none ∨ d.state ≠ .stopped → deliver (.du .takeHeld) s = (s, [])))

/-- The cooldown's expiry in COOLING hands STOP to the FLI and starts the stop repeat timer, whose expiry hands it
over again while RUNNING is active. The CC's stop request stops a set of origin CALL from CRANKING, WARMING and
READY and leaves any other as it stands; in COOLING it drops a held start, with the join request waiting for it, and
is else ignored. That the origin clears at STOPPED, that the repeat timer starts in CRANKING too, and that a held
start of another origin is dropped is the model's reading (logs 27, 28 and 49). The reports are handed on in the
model's order (log 3). That an expiry whose timer stands still is void is the model's reading (log 5). -/
def Obligations.StopsAreRepeated : Prop :=
  (∀ s : State, s.isUp = true →
     let stopped (d : Du) : State :=
       { s with du := { d with stopRepeat := some 30000 }, fli := (fliCommand s.fli .genset .off).1 }
     (s.du.cooldown = none ∨ s.du.state ≠ .cooling → exec .cooldownExpiry s = .next s) ∧
     (s.du.cooldown.isSome = true → s.du.state = .cooling →
       exec .cooldownExpiry s = .next (stopped { s.du with cooldown := none })) ∧
     (s.du.stopRepeat = none ∨ s.fli.inputs.running = false → exec .stopRepeatExpiry s = .next s) ∧
     (s.du.stopRepeat.isSome = true → s.fli.inputs.running = true →
       exec .stopRepeatExpiry s = .next (stopped s.du))) ∧
  (∀ s : State,
    let d := s.du
    let x := deliver (.du .reqStop) s
    let becomes (e : Du) : State := { s with du := e }
    let stop : Report := .fli (.command .genset .off)
    let dropped := becomes { d.clearJoin with heldStart := none }
    let ignored := (d.heldStart = none → x = (s, [])) ∧ (d.heldStart.isSome = true → x = (dropped, []))
    (d.origin = some .call →
      (d.state = .cranking → s.fli.inputs.running = false → x = (becomes { d.clearJoin with
          state := .stopped, startIntent := none, heldStart := none, origin := none, cause := none, share := 0
          tripIssued := false, startTimer := none, cooldown := none, ramp := none, stopRepeat := none },
        stop :: moveReports .cranking .stopped)) ∧
      ((d.state = .cranking ∧ s.fli.inputs.running = true) ∨ d.state = .warming ∨ d.state = .ready →
        x = (becomes d.stopping, stop :: moveReports d.state .cooling)) ∧
      (d.state = .cooling → ignored) ∧
      (d.state = .stopped ∨ d.state = .onbus ∨ d.state = .rampdown ∨ d.state = .fault → x = (s, []))) ∧
    (d.origin ≠ some .call → ignored))

/-- Each group figure as Table 2-4 computes it, from the peer table and the own values, computed again and handed on
when an own value changes. S is the load not releasing over the capacity, in per-mille, rounded half up, at most
1,250. It is computed in ONBUS alone: on entry, at each changed C, L or releasing load, and at the first SE window
of a start, not before. In RAMPDOWN before TRIP it falls each second by ten times the ramp rate, to 0 at the lowest;
the ramp timer's expiry issues TRIP, told to the CC as forced, and so does an SE window that shows a low output,
told as normal. Before TRIP the ramp is left for ONBUS when no set is carrying, the CC told of it, and when the CC
asks to resume. The CC's ramp request starts the ramp from ONBUS, TRIP at once at a low output, and is refused in
any other state; its trip request hands TRIP over in ONBUS alone. At a capacity of 0 S stays as it is, the model's
reading (log 42). The reports are handed on in the model's order (log 3). That an expiry whose timer stands still is
void is the model's reading (log 5). -/
def Obligations.SharesAndRamps : Prop :=
  (∀ (s : State) (l : List PeerEntry),
    let f := figuresOf s l
    let own (b : Bool) (n : Nat) : Nat := if b then n else 0
    let releasing : Bool := s.du.breaker && s.du.state == .rampdown
    let carrying : Bool := s.du.breaker && s.du.state != .rampdown
    let on := l.filter fun e => e.fields.onBus
    let down := on.filter fun e => e.fields.setState == .rampdown
    let carry := on.filter fun e => e.fields.setState != .rampdown
    f.capacity = own carrying s.cfg.rating + (carry.map (·.fields.rating)).sum ∧
    f.load = own s.du.breaker s.pcu.se.figure + (on.map (·.fields.output)).sum ∧
    f.releasing = own releasing s.pcu.se.figure + (down.map (·.fields.output)).sum ∧
    f.carrying = own carrying 1 + carry.length ∧ f.peersOnBus = on.length ∧
    (f.showActive = true ↔ s.fli.inputs.showSwitch = true ∨ ∃ e ∈ l, e.fields.showInput = true) ∧
    (f.handoverInGroup = true ↔ s.cc.state ≠ .idle ∨ ∃ e ∈ l, e.fields.handover ≠ .idle) ∧
    (f.lowestShed = none ↔ ∀ e ∈ l, e.fields.shedClass = none) ∧
    (∀ k, f.lowestShed = some k → (∃ e ∈ l, e.fields.shedClass = some k) ∧
      ∀ e ∈ l, ∀ q, e.fields.shedClass = some q → priority s.cfg.order k ≤ priority s.cfg.order q)) ∧
  (∀ s : State,
    let old := s.pt.figs
    let new := figuresOf s s.pt.entries
    let told := (deliver (.pt .ownChanged) s).2
    let power := old.capacity ≠ new.capacity ∨ old.load ≠ new.load ∨ old.releasing ≠ new.releasing
    (deliver (.pt .ownChanged) s).1 = { s with pt := { s.pt with figs := new } } ∧ (old = new → told = []) ∧
    (power → .du (.figures true) ∈ told) ∧
    (¬ power → (old.carrying ≠ new.carrying ∨ old.peersOnBus ≠ new.peersOnBus ∨
      old.handoverInGroup ≠ new.handoverInGroup) → .du (.figures false) ∈ told) ∧
    (old.showActive ≠ new.showActive → .cc (.showActive new.showActive) ∈ told) ∧
    (old.capacity ≠ new.capacity ∨ old.load ≠ new.load ∨ old.lowestShed ≠ new.lowestShed →
      .sc (.figures (decide (old.capacity ≠ new.capacity ∨ old.load ≠ new.load))
        (decide (old.lowestShed ≠ new.lowestShed))) ∈ told)) ∧
  (∀ f : Figures, 0 < f.capacity →
    shareOf f = min 1250 ((2 * ((f.load - f.releasing) * 1000) + f.capacity) / (2 * f.capacity))) ∧
  (∀ s : State, s.isUp = true →
    (s.du.state = .rampdown → s.du.tripIssued = false →
      exec .rampSecond s = .next { s with du := { s.du with share := s.du.share - 10 * s.cfg.rampRate } }) ∧
    (s.du.state ≠ .rampdown ∨ s.du.tripIssued = true → exec .rampSecond s = .next s) ∧
    (s.du.state = .rampdown → s.du.tripIssued = false → s.du.ramp.isSome = true →
      exec .rampTimerExpiry s = .next (State.handOn { s with du := { s.du with tripIssued := true, ramp := none } } 1
        [.fli (.command .breaker .off), .cc (.tripIssued .forced)])) ∧
    (s.du.state ≠ .rampdown ∨ s.du.tripIssued = true ∨ s.du.ramp = none → exec .rampTimerExpiry s = .next s)) ∧
  (∀ s : State,
    let d := s.du
    let f := s.pt.figs
    let given (m : DuMsg) : State × List Report := deliver (.du m) s
    let becomes (e : Du) : State := { s with du := e }
    let shares := d.state = .onbus ∧ d.shareArmed = true ∧ 0 < f.capacity
    let ramping := d.state = .rampdown ∧ d.tripIssued = false
    let low := 20 * s.pcu.se.figure ≤ s.cfg.rating
    let onbus : Du := { d with state := .onbus, ramp := none, stopIntent := none }
    let armed : Du := { d with shareArmed := true }
    (shares → given .computeShare = (becomes { d with share := shareOf f }, []) ∧
      given (.figures true) = (becomes { d with share := shareOf f }, [.du .test])) ∧
    (¬ shares → given .computeShare = (s, []) ∧
      (¬ (ramping ∧ f.carrying = 0) → given (.figures true) = (s, [.du .test]))) ∧
    (ramping → f.carrying = 0 → ∀ power, given (.figures power) =
      (becomes onbus, moveReports .rampdown .onbus ++ [.cc .rampAbandoned, .du .test])) ∧
    (¬ (ramping ∧ f.carrying = 0) → given (.figures false) = (s, [.du .test])) ∧
    (.du .computeShare ∈ moveReports .rampdown .onbus ∧ ∀ st, .du .computeShare ∈ moveReports st .onbus) ∧
    (ramping → given .reqResume = (becomes onbus, moveReports .rampdown .onbus)) ∧
    (¬ ramping → given .reqResume = (s, [])) ∧
    (ramping → low → given .seWindow = (becomes { armed with tripIssued := true, ramp := none },
      [.fli (.command .breaker .off), .cc (.tripIssued .normal)])) ∧
    (¬ (ramping ∧ low) → d.shareArmed = true → given .seWindow = (s, [])) ∧
    (¬ (ramping ∧ low) → d.shareArmed = false →
      (d.state = .onbus → 0 < f.capacity → given .seWindow = (becomes { armed with share := shareOf f }, [])) ∧
      (d.state ≠ .onbus ∨ f.capacity = 0 → given .seWindow = (becomes armed, [])))) ∧
  (∀ s : State,
    let d : Du := { s.du with state := .rampdown }
    let x := deliver (.du .reqRamp) s
    (s.du.state = .onbus → s.cfg.rating < 20 * s.pcu.se.figure → x =
      ({ s with du := { d with ramp := some 60000, tripIssued := false } }, moveReports .onbus .rampdown)) ∧
    (s.du.state = .onbus → 20 * s.pcu.se.figure ≤ s.cfg.rating → x =
      ({ s with du := { d with ramp := none, tripIssued := true } },
        moveReports .onbus .rampdown ++ [.fli (.command .breaker .off), .cc (.tripIssued .normal)])) ∧
    (s.du.state ≠ .onbus → x = (s, [.cc .rampRefused])) ∧
    deliver (.du .reqTrip) s = (s, if s.du.state = .onbus then [.fli (.command .breaker .off)] else []))

/-- The start need, its dwell and the hold of the dwell; the eligible standbys and the own place among them. The
start dwell's expiry at the first eligible standby sends START INTENT, holds it outstanding and makes the start and
join requests; at another station nothing is sent. A rival intent ahead of the own one ends it, and stops a set it
started, to STOPPED from CRANKING, to COOLING from WARMING and READY. That the origin clears at STOPPED and the stop
repeat timer starts in CRANKING too is the model's reading (logs 27 and 28). Which sets a withdrawn intent stops is
the model's reading (log 29). The reports are handed on in the model's order (log 3). That an expiry whose timer
stands still is void is the model's reading (log 5). -/
def Obligations.StartContests : Prop :=
  (∀ s : State,
    let d := (deliver (.du .test) s).1.du
    let up (st : SetState) : Prop := st = .cranking ∨ st = .warming
    let need := s.cfg.setFitted = true ∧ s.cfg.startThr * s.pt.figs.capacity < s.pt.figs.load * 100
    let held := s.pt.figs.handoverInGroup = true ∨ up s.du.state ∨ (∃ e ∈ s.pt.entries, up e.fields.setState) ∨
      s.du.startIntent.isSome = true
    let eligible (fitted : Bool) (st : SetState) (closed : Bool) (thr : Threshold) (ho : Handover) : Prop :=
      fitted = true ∧ (st = .stopped ∨ st = .ready) ∧ closed = false ∧ thr = .normal ∧ ho = .idle
    let standby (e : PeerEntry) : Prop := eligible e.fields.setFitted e.fields.setState e.fields.onBus
      e.fields.threshold e.fields.handover
    let ownReady := s.du.state = .ready
    let before (e : PeerEntry) : Prop :=
      (e.fields.setState = .ready ∧ ¬ ownReady) ∨
        ((e.fields.setState = .ready ↔ ownReady) ∧ (s.fu.hours < e.fields.hours ∨
          (e.fields.hours = s.fu.hours ∧ e.station < s.cfg.station)))
    (s.isRunning = false ∨ s.lc.duplicate = true ∨ ¬ need → d.startDwell = .off) ∧
    (s.isRunning = true → s.lc.duplicate = false → need →
      (s.du.startDwell = .off →
        (held → d.startDwell = .held (s.cfg.startDwell * 1000)) ∧
        (¬ held → d.startDwell = .running (s.cfg.startDwell * 1000))) ∧
      (∀ n, s.du.startDwell = .running n ∨ s.du.startDwell = .held n →
        (held → d.startDwell = .held n) ∧ (¬ held → d.startDwell = .running n))) ∧
    (ownEligible s.du s = true ↔
      eligible s.cfg.setFitted s.du.state s.du.breaker s.fu.threshold s.cc.state) ∧
    (∀ e : PeerEntry, peerEligible e.fields = true ↔ standby e) ∧
    (startPlace s.du s = 1 ↔ ∀ e ∈ s.pt.entries, standby e → ¬ before e) ∧
    (∀ ahead : List PeerEntry, ahead.Sublist s.pt.entries → (∀ e ∈ ahead, standby e ∧ before e) →
      ahead.length < startPlace s.du s) ∧
    (∃ ahead : List PeerEntry, ahead.Sublist s.pt.entries ∧ (∀ e ∈ ahead, standby e ∧ before e) ∧
      startPlace s.du s = ahead.length + 1)) ∧
  ∀ s : State, s.isUp = true →
    let intent (ready : Bool) : Report := duFrame s .startIntent (flagByte ready :: beBytes 2 s.fu.hours)
    let first := s.lc.duplicate = false ∧ ownEligible s.du s = true ∧ startPlace s.du s = 1
    let d : Du := { s.du with startDwell := .off }
    ((∀ ms, s.du.startDwell ≠ .running ms) → exec .startDwellExpiry s = .next s) ∧
    (∀ ms, s.du.startDwell = .running ms → ¬ first →
      exec .startDwellExpiry s = .next (State.handOn { s with du := d } 1 [.du .test])) ∧
    (∀ ms, s.du.startDwell = .running ms → first → s.du.state = .stopped →
      exec .startDwellExpiry s = .next (State.handOn
        { s with du := ({ d with startIntent := some ⟨false, s.fu.hours⟩ } : Du).cranking .dispatch
                         s.fli.inputs.busLive } 1
        ([intent false, .fli (.command .genset .on)] ++ moveReports .stopped .cranking ++ [.du .test]))) ∧
    (∀ ms, s.du.startDwell = .running ms → first → s.du.state = .ready → s.fli.closing = false →
      let e : Du := { d with
        startIntent := some ⟨true, s.fu.hours⟩
        joinTimer := if s.du.joinTimer.isNone then some 60000 else s.du.joinTimer }
      (s.fli.inputs.busLive = true →
        exec .startDwellExpiry s = .next (State.handOn { s with du := { e with join := some .bySync } } 1
          ([intent true] ++ (if s.fli.inputs.syncOk then [.fli (.command .breaker .on)] else []) ++ [.du .test]))) ∧
      (s.fli.inputs.busLive = false → s.du.claimHold = none →
        exec .startDwellExpiry s = .next (State.handOn { s with du := e.claiming s.fu.hours } 1
          [intent true, duFrame s .deadbusClaim (1 :: beBytes 2 s.fu.hours), .du .test]))) ∧
    (∀ (h : Header) (p : List Byte), Accepts s h → FromStation h → p.length = 3 →
      let ahead (sent : Keys) : Bool := startAhead (keysOf p) h.sender.toNat sent s.cfg.station
      let ended : Du := { s.du.clearJoin with startIntent := none }
      (s.du.startIntent = none → exec (.startIntentReceived h p) s = .next s.heard) ∧
      (∀ sent, s.du.startIntent = some sent → (s.du.state = .onbus ∨ ahead sent = false) →
        exec (.startIntentReceived h p) s = .next s.heard) ∧
      (∀ sent, s.du.startIntent = some sent → s.du.state ≠ .onbus → ahead sent = true →
        (s.du.origin ≠ some .dispatch ∨ sent.ready = true) →
        exec (.startIntentReceived h p) s = .next (State.handOn { s.heard with du := ended } 2 [.du .test])) ∧
      (∀ sent, s.du.startIntent = some sent → (s.du.state = .warming ∨ s.du.state = .ready ∨
          (s.du.state = .cranking ∧ s.fli.inputs.running = true)) → ahead sent = true →
        s.du.origin = some .dispatch → sent.ready = false →
        exec (.startIntentReceived h p) s = .next (State.handOn { s.heard with du := ended.stopping } 2
          ([.fli (.command .genset .off)] ++ moveReports s.du.state .cooling ++ [.du .test]))) ∧
      (∀ sent, s.du.startIntent = some sent → s.du.state = .cranking → s.fli.inputs.running = false →
        ahead sent = true → s.du.origin = some .dispatch → sent.ready = false →
        exec (.startIntentReceived h p) s = .next (State.handOn
          { s.heard with du := { ended with
              state := .stopped, origin := none, cause := none, share := 0, tripIssued := false, heldStart := none
              startTimer := none, cooldown := none, ramp := none, stopRepeat := none } } 2
          ([.fli (.command .genset .off)] ++ moveReports .cranking .stopped ++ [.du .test]))))

/-- The stop need, its dwell and the hold of the dwell, and who is first in stop rank. The stop dwell's expiry at
the first stop candidate sends STOP INTENT and holds it for 3 s; a rival ahead ends it; the hold's end, with two
sets or more carrying, ramps the set down, TRIP at once at 5 % of the rating or less. The reports are handed on in
the model's order (log 3). That an expiry whose timer stands still is void is the model's reading (log 5). -/
def Obligations.StopContests : Prop :=
  (∀ s : State,
    let d := (deliver (.du .test) s).1.du
    let low (rating : Nat) : Prop := 2 ≤ s.pt.figs.carrying ∧
      s.pt.figs.load * 100 < s.cfg.stopThr * (s.pt.figs.capacity - rating)
    let need := s.du.state = .onbus ∧ low s.cfg.rating
    let held := s.pt.figs.handoverInGroup = true ∨ 0 < s.pt.figs.releasing ∨ s.du.stopIntent.isSome = true
    let before (e : PeerEntry) : Prop := e.fields.hours < s.fu.hours ∨
      (e.fields.hours = s.fu.hours ∧ s.cfg.station < e.station)
    (s.isRunning = false ∨ s.lc.duplicate = true ∨ ¬ need → d.stopDwell = .off) ∧
    (s.isRunning = true → s.lc.duplicate = false → need →
      (s.du.stopDwell = .off →
        (held → d.stopDwell = .held (s.cfg.stopDwell * 1000)) ∧
        (¬ held → d.stopDwell = .running (s.cfg.stopDwell * 1000))) ∧
      (∀ n, s.du.stopDwell = .running n ∨ s.du.stopDwell = .held n →
        (held → d.stopDwell = .held n) ∧ (¬ held → d.stopDwell = .running n))) ∧
    (firstToStop s = true ↔ low s.cfg.rating ∧ ∀ e ∈ s.pt.entries, e.fields.onBus = true →
      e.fields.setState ≠ .rampdown → low e.fields.rating → ¬ before e)) ∧
  ∀ s : State, s.isUp = true →
    let first := s.lc.duplicate = false ∧ s.du.state = .onbus ∧ firstToStop s = true
    let d : Du := { s.du with stopDwell := .off }
    ((∀ ms, s.du.stopDwell ≠ .running ms) → exec .stopDwellExpiry s = .next s) ∧
    (∀ ms, s.du.stopDwell = .running ms → ¬ first →
      exec .stopDwellExpiry s = .next (State.handOn { s with du := d } 1 [.du .test])) ∧
    (∀ ms, s.du.stopDwell = .running ms → first →
      exec .stopDwellExpiry s = .next (State.handOn
        { s with du := { d with stopIntent := some s.fu.hours, intentHold := some 3000 } } 1
        [duFrame s .stopIntent (beBytes 2 s.fu.hours), .du .test])) ∧
    (∀ (h : Header) (p : List Byte), Accepts s h → FromStation h → p.length = 2 →
      let ahead (own : Nat) : Bool := stopAhead (fieldAt p 0 2) h.sender.toNat own s.cfg.station
      ((s.du.stopIntent = none ∨ s.du.intentHold = none) → exec (.stopIntentReceived h p) s = .next s.heard) ∧
      (∀ own, s.du.stopIntent = some own → ahead own = false →
        exec (.stopIntentReceived h p) s = .next s.heard) ∧
      (∀ own, s.du.stopIntent = some own → s.du.intentHold.isSome = true → ahead own = true →
        exec (.stopIntentReceived h p) s = .next (State.handOn
          { s.heard with du := { s.du with stopIntent := none, intentHold := none } } 2 [.du .test]))) ∧
    (s.du.intentHold = none → exec .intentHoldExpiry s = .next s) ∧
    (s.du.intentHold.isSome = true → (s.du.state ≠ .onbus ∨ s.pt.figs.carrying < 2) →
      exec .intentHoldExpiry s = .next (State.handOn
        { s with du := { s.du with intentHold := none, stopIntent := none } } 1 [.du .test])) ∧
    (s.du.intentHold.isSome = true → s.du.state = .onbus → 2 ≤ s.pt.figs.carrying →
      let e : Du := { s.du with intentHold := none, state := .rampdown }
      (s.cfg.rating < 20 * s.pcu.se.figure →
        exec .intentHoldExpiry s = .next (State.handOn
          { s with du := { e with ramp := some 60000, tripIssued := false } } 1 (moveReports .onbus .rampdown))) ∧
      (20 * s.pcu.se.figure ≤ s.cfg.rating →
        exec .intentHoldExpiry s = .next (State.handOn { s with du := { e with ramp := none, tripIssued := true } } 1
          (moveReports .onbus .rampdown ++ [.fli (.command .breaker .off), .cc (.tripIssued .normal)]))))

/-- The dead-bus timer starts as its conditions hold together. Its expiry: an ineligible station takes no part, the
first in start rank makes the start and join requests, place k waits (k - 1) times 20 s for its escalation timer and
makes them then. A station without a part stays so while it is ineligible and begins afresh, at its place of that
moment, as its own set is an eligible standby again (log 31). The recovery ends as a condition fails; as a peer is
shown on bus the join request of the station is BY SYNC, except that a claim already sent or a CLOSE already handed
over goes on (log 55). The reports are handed on in the model's order (log 3). That an expiry whose timer stands
still is void is the model's reading (log 5). -/
def Obligations.DeadBusRecovery : Prop :=
  ∀ s : State, s.isUp = true →
    let d : Du := { s.du with deadBus := none }
    let requested (e : Du) : Du := { e with recovery := .requested, escalation := none }
    let cranked (e : Du) : State :=
      State.handOn { s with du := (requested e).cranking .recovery s.fli.inputs.busLive } 1
        ([.fli (.command .genset .on)] ++ moveReports .stopped .cranking)
    let claimed (e : Du) : State :=
      State.handOn
        { s with du := ({ requested e with
            origin := if s.du.origin = none ∨ s.du.origin = some .hand then some .recovery else s.du.origin
            joinTimer := if s.du.joinTimer.isNone then some 60000 else s.du.joinTimer } : Du).claiming s.fu.hours } 1
        [duFrame s .deadbusClaim (1 :: beBytes 2 s.fu.hours)]
    let free := s.fli.closing = false ∧ s.fli.inputs.busLive = false ∧ s.du.claimHold = none ∧
      s.lc.duplicate = false
    (s.du.deadBus = none → exec .deadbusTimerExpiry s = .next s) ∧
    (s.du.deadBus.isSome = true →
      (ownEligible s.du s = false →
        exec .deadbusTimerExpiry s = .next { s with du := { d with recovery := .noPart } }) ∧
      (ownEligible s.du s = true → 2 ≤ startPlace s.du s →
        exec .deadbusTimerExpiry s = .next { s with du := { d with
          recovery := .escalating, escalation := some ((startPlace s.du s - 1) * 20000) } }) ∧
      (ownEligible s.du s = true → startPlace s.du s = 1 → s.du.state = .stopped →
        exec .deadbusTimerExpiry s = .next (cranked d)) ∧
      (ownEligible s.du s = true → startPlace s.du s = 1 → s.du.state = .ready → free →
        exec .deadbusTimerExpiry s = .next (claimed d))) ∧
    (s.du.escalation = none → exec .escalationExpiry s = .next s) ∧
    (s.du.escalation.isSome = true →
      (s.du.state = .stopped → exec .escalationExpiry s = .next (cranked s.du)) ∧
      (s.du.state = .ready → free → exec .escalationExpiry s = .next (claimed s.du))) ∧
    (let tested := testDwells s.du s
     let x := deliver (.du .test) s
     let becomes (e : Du) : State := { s with du := e }
     let ended : Du := { tested with deadBus := none, recovery := .none, escalation := none }
     let dead := s.phase = .running ∧ s.cfg.setFitted = true ∧ s.lc.duplicate = false ∧ s.fli.inputs.busLive = false ∧
       s.pt.figs.peersOnBus = 0 ∧ s.du.breaker = false
     let overtaken := s.du.recovery = .requested ∧ 1 ≤ s.pt.figs.peersOnBus ∧ s.du.join.isSome = true ∧
       s.du.claimHold = none ∧ s.fli.closing = false
     (∃ a b, tested = { s.du with startDwell := a, stopDwell := b }) ∧
     (dead → s.du.recovery = .none → x = (becomes { tested with deadBus := some 2000 }, [])) ∧
     (dead → s.du.recovery = .escalating ∨ s.du.recovery = .requested → x = (becomes tested, [])) ∧
     (dead → s.du.recovery = .noPart →
       (ownEligible s.du s = false → x = (becomes tested, [])) ∧
       (ownEligible s.du s = true → 2 ≤ startPlace s.du s → x = (becomes { tested with
         recovery := .escalating, escalation := some ((startPlace s.du s - 1) * 20000) }, [])) ∧
       (ownEligible s.du s = true → startPlace s.du s = 1 → s.du.state = .stopped →
         x = (becomes ((requested tested).cranking .recovery false),
           [.fli (.command .genset .on)] ++ moveReports .stopped .cranking)) ∧
       (ownEligible s.du s = true → startPlace s.du s = 1 → s.du.state = .ready → s.fli.closing = false →
         s.du.claimHold = none →
         x = (becomes (({ requested tested with
             origin := if s.du.origin = none ∨ s.du.origin = some .hand then some .recovery else s.du.origin
             joinTimer := if s.du.joinTimer.isNone then some 60000 else s.du.joinTimer } : Du).claiming s.fu.hours),
           [duFrame s .deadbusClaim (1 :: beBytes 2 s.fu.hours)]))) ∧
     (¬ dead → ¬ overtaken → x = (becomes ended, [])) ∧
     (¬ dead → overtaken → x = (becomes { ended with join := some .bySync },
       if s.du.state = .ready ∧ s.fli.inputs.syncOk = true then [.fli (.command .breaker .on)] else [])))

/-- The claim hold's end hands CLOSE over on a bus still dead; a rival claim ahead during the hold ends it and
begins a wait of 20 s, after which a bus still dead is claimed anew, at once or when the set is next READY. That a
loss ends the hold is the model's reading (log 30). The join timer's expiry ends request and intent, tells the CC,
and stops a set the intent started. Which sets a lapsed intent stops is the model's reading (log 29). A join request
takes its mode from BUS LIVE and follows its changes until CLOSE is handed over, on a live bus with SYNC OK active,
on a dead one by claim; one made in ONBUS, RAMPDOWN or FAULT is dropped (the model's choice, log 48). The loss of
the rival that won ends the wait. A claim heard restarts a running escalation timer from its full length, which is
the length the state holds (log 5). DUPLICATE voids intents and claim holds and stops the contests' timers; a held
start stays held (the model's choice, log 46). The reports are handed on in the model's order (log 3). That an
expiry whose timer stands still is void is the model's reading (log 5). -/
def Obligations.ClaimsAndJoinFailures : Prop :=
  (∀ s : State, s.isUp = true →
     (s.du.claimHold = none → exec .claimHoldExpiry s = .next s) ∧
     (s.du.claimHold.isSome = true →
       exec .claimHoldExpiry s = .next (State.handOn { s with du := { s.du with claim := none, claimHold := none } } 1
         (if s.du.state = .ready ∧ s.du.join = some .byClaim ∧ s.fli.inputs.busLive = false
           then [.fli (.command .breaker .on)] else []))) ∧
     (∀ (h : Header) (p : List Byte), Accepts s h → FromStation h → p.length = 3 →
       let ahead (own : Keys) : Bool := startAhead (keysOf p) h.sender.toNat own s.cfg.station
       ((s.du.claim = none ∨ s.du.claimHold = none) → exec (.deadbusClaimReceived h p) s = .next s.heard) ∧
       (∀ own, s.du.claim = some own → ahead own = false → exec (.deadbusClaimReceived h p) s = .next s.heard) ∧
       (∀ own, s.du.claim = some own → s.du.claimHold.isSome = true → ahead own = true →
         exec (.deadbusClaimReceived h p) s = .next (State.handOn
           { s.heard with du := { s.du with
               claim := none, claimHold := none, rival := some h.sender.toNat, claimWait := some 20000
               join := some .bySync } } 2
           (if s.du.state = .ready ∧ s.fli.closing = false ∧ s.fli.inputs.syncOk = true
             then [.fli (.command .breaker .on)] else [])))) ∧
     (let dead := s.du.join.isSome = true ∧ s.fli.inputs.busLive = false ∧ s.lc.duplicate = false
      let waited : Du := { s.du with claimWait := none, rival := none }
      let claimed : State := State.handOn { s with du := s.du.claiming s.fu.hours } 1
        [duFrame s .deadbusClaim (1 :: beBytes 2 s.fu.hours)]
      let free := s.fli.closing = false ∧ s.du.claimHold = none
      (s.du.claimWait = none → exec .claimWaitExpiry s = .next s) ∧
      (s.du.claimWait.isSome = true → ¬ dead → exec .claimWaitExpiry s = .next { s with du := waited }) ∧
      (s.du.claimWait.isSome = true → dead → s.du.state ≠ .ready ∨ ¬ free →
       exec .claimWaitExpiry s = .next { s with du := { waited with join := some .byClaim } }) ∧
      (s.du.claimWait.isSome = true → dead → s.du.state = .ready → free → exec .claimWaitExpiry s = .next claimed) ∧
      (s.du.state = .ready → s.du.join = some .byClaim → dead → free →
       deliver (.du .tryJoin) s = ({ s with du := s.du.claiming s.fu.hours },
         [duFrame s .deadbusClaim (1 :: beBytes 2 s.fu.hours)]))) ∧
     (let ended : Du := { s.du.clearJoin with startIntent := none }
      (s.du.joinTimer = none → exec .joinTimerExpiry s = .next s) ∧
      (s.du.joinTimer.isSome = true →
       (s.du.startIntent = none ∨ s.du.origin ≠ some .dispatch ∨ (∃ k, s.du.startIntent = some k ∧ k.ready = true)) →
       exec .joinTimerExpiry s = .next (State.handOn { s with du := ended } 1 [.cc .joinFail, .du .test])) ∧
      (∀ k, s.du.joinTimer.isSome = true → s.du.startIntent = some k → k.ready = false →
       s.du.origin = some .dispatch → (s.du.state = .ready ∨ s.du.state = .warming) →
       exec .joinTimerExpiry s = .next (State.handOn { s with du := ended.stopping } 1
         ([.cc .joinFail, .fli (.command .genset .off)] ++ moveReports s.du.state .cooling ++ [.du .test]))))) ∧
  (∀ s : State,
    let d := s.du
    let given (m : DuMsg) : State × List Report := deliver (.du m) s
    let becomes (e : Du) (rs : List Report) : State × List Report := ({ s with du := e }, rs)
    let close : List Report := [.fli (.command .breaker .on)]
    let claimFrame : Report := duFrame s .deadbusClaim (1 :: beBytes 2 s.fu.hours)
    let live := s.fli.inputs.busLive = true
    let ready := d.state = .ready ∧ s.fli.closing = false
    let free := d.claimHold = none ∧ s.lc.duplicate = false
    let waiting := d.state = .stopped ∨ d.state = .cranking ∨ d.state = .warming ∨ d.state = .cooling
    let timed (e : Du) : Du := { e with joinTimer := if d.joinTimer = none then some 60000 else d.joinTimer }
    let sync : Du := { d with join := some .bySync }
    let claim : Du := { d with join := some .byClaim }
    (d.state = .onbus ∨ d.state = .rampdown ∨ d.state = .fault → given .reqJoin = (s, [])) ∧
    (waiting → (live → given .reqJoin = becomes sync []) ∧ (¬ live → given .reqJoin = becomes claim [])) ∧
    (d.state = .ready →
      (live → given .reqJoin = becomes (timed sync)
        (if s.fli.closing = false ∧ s.fli.inputs.syncOk = true then close else [])) ∧
      (¬ live → s.fli.closing = false → free →
        given .reqJoin = becomes ((timed d).claiming s.fu.hours) [claimFrame]) ∧
      (¬ live → s.fli.closing = true ∨ ¬ free → given .reqJoin = becomes (timed claim) [])) ∧
    (let e : Du := { d with claim := none, claimHold := none, rival := none, claimWait := none }
     live → given (.busLive true) = becomes
       { e with join := if d.join.isSome = true ∧ s.fli.closing = false then some .bySync else d.join }
       ((if ready ∧ d.join.isSome = true ∧ s.fli.inputs.syncOk = true then close else []) ++ [.du .test])) ∧
    (¬ live →
      (d.join = none ∨ s.fli.closing = true → given (.busLive false) = becomes d [.du .test]) ∧
      (d.join.isSome = true → ready → free →
        given (.busLive false) = becomes (d.claiming s.fu.hours) [claimFrame, .du .test]) ∧
      (d.join.isSome = true → s.fli.closing = false → ¬ (ready ∧ free) →
        given (.busLive false) = becomes claim [.du .test])) ∧
    given (.syncOk false) = (s, []) ∧ (d.join = none → given (.syncOk true) = (s, [])) ∧
    (d.join = some .bySync → s.fli.inputs.syncOk = true → given (.syncOk true) = (s, if ready then close else [])) ∧
    (∀ n,
      let dead := d.join.isSome = true ∧ ¬ live ∧ s.lc.duplicate = false
      let done (e : Du) : Du := { e with claimWait := none, rival := none }
      (d.rival ≠ some n ∨ d.claimWait = none → given (.peerLost n) = (s, [.du .test])) ∧
      (d.rival = some n → d.claimWait.isSome = true →
        (¬ dead → given (.peerLost n) = becomes (done d) [.du .test]) ∧
        (dead → ready → d.claimHold = none →
          given (.peerLost n) = becomes (d.claiming s.fu.hours) [claimFrame, .du .test]) ∧
        (dead → ¬ (ready ∧ d.claimHold = none) → given (.peerLost n) = becomes (done claim) [.du .test]))) ∧
    (∀ n keys, (given (.claim n keys)).1.du.escalation = d.escalation) ∧
    given .duplicate = becomes { d with
      startIntent := none, stopIntent := if d.intentHold.isSome then none else d.stopIntent, intentHold := none
      claim := none, claimHold := none, startDwell := .off, stopDwell := .off, deadBus := none, recovery := .none
      escalation := none } [])

/-! ### Changeover -/

/-- HANDOVER REQUEST opens a scheduled call where the set is ONBUS, no handover runs and DUPLICATE is clear: HOLD
while a show is active, else a CALL; STATE in every other case. HANDOVER ABORT ends a call in HOLD, CALL and
PREPARE. A change of the threshold state makes or clears the pending fuel cause: it withdraws a fuel call in HOLD
and CALL, ends an offer, replaces a lesser cause of a call not yet over, and opens a call from IDLE as soon as one
may be opened. A show that becomes active puts a call with a deferrable cause in HOLD, from CALL and from PREPARE in
OPEN mode, with a HOLD frame to those who may still answer; as it ends, a new CALL is sent. A pending cause is
served from IDLE with the set ONBUS and DUPLICATE clear, at each entry to IDLE and each change of the set there:
HOLD while a show defers it, else a CALL. The reports are handed on in the model's order (log 3). -/
def Obligations.HandoverToolCommands : Prop :=
  (∀ (h : Header) (tag : Byte) (s : State), Commands s h → s.fli.inputs.lock = false →
    let may := s.cfg.setFitted = true ∧ s.cc.state = .idle ∧ s.du.state = .onbus ∧ s.lc.duplicate = false
    let opened (n : Nat) : CallRec := ⟨n, .scheduled, 0, [], none, none, false, none, false, false⟩
    let done (k : SubKind) : Report := .lc (.answer (askOf h k tag) .done [])
    let next := (s.cc.counter + 1) % 256
    (¬ may → exec (.handoverRequest h tag []) s =
      .next (s.heard.answered (askOf h .handoverRequest tag) .state [])) ∧
    (may → s.pt.figs.showActive = true → exec (.handoverRequest h tag []) s = .next (State.handOn
      { s.heard with cc := { s.cc with state := .hold, call := some (opened s.cc.counter) } } 2
      (enteringReports .idle .hold ++ [done .handoverRequest]))) ∧
    (may → s.pt.figs.showActive = false → exec (.handoverRequest h tag []) s = .next (State.handOn
      { s.heard with cc := { s.cc with
          state := .call, counter := next, call := some (opened next), offerWindow := some 3000, retryWait := none
          noIncoming := false, partnerLost := false } } 2
      ([.lc (.offer (groupFrame s.cfg .call 0 ([BitVec.ofNat 8 next, 1] ++ beBytes 2 s.pcu.se.figure ++
          [flagByte s.cfg.closedCap, BitVec.ofNat 8 s.cfg.station])))] ++ enteringReports .idle .call ++
        [done .handoverRequest]))) ∧
    ((s.cc.call = none ∨ (s.cc.state ≠ .hold ∧ s.cc.state ≠ .call ∧ s.cc.state ≠ .prepare)) →
      exec (.handoverAbort h tag []) s = .next (s.heard.answered (askOf h .handoverAbort tag) .state [])) ∧
    (∀ r, s.cc.call = some r → (s.cc.state = .hold ∨ s.cc.state = .call ∨ s.cc.state = .prepare) →
      exec (.handoverAbort h tag []) s = .next (State.handOn { s.heard with cc := s.cc.idled } 2
        ((if s.cc.state = .prepare then [abortFrame s (r.incoming.getD 0) s.cfg.station r.number .tool]
          else if s.cc.state = .call ∧ s.cc.offerWindow.isSome then [abortFrame s 0 s.cfg.station r.number .tool]
          else []) ++ enteringReports s.cc.state .idle ++ [.cc .serve, done .handoverAbort])))) ∧
  (∀ (s : State) (before after : Threshold),
    let pending : Option Cause :=
      match after, before with
      | .normal, _ => none
      | .critical, _ => some .fuelCritical
      | .low, .normal => if s.cc.pending = some .fuelCritical then some .fuelCritical else some .fuelLow
      | .low, .low | .low, .critical => s.cc.pending
    let c : Cc := { s.cc with pending := pending }
    let x := deliver (.cc (.threshold before after)) s
    let becomes (d : Cc) : Prop := x.1 = { s with cc := d }
    let may := s.cfg.setFitted = true ∧ s.du.state = .onbus ∧ s.lc.duplicate = false
    let next := (s.cc.counter + 1) % 256
    let called (r : CallRec) : Cc := { c with
      state := .call, pending := none, counter := next
      call := some { r with number := next, offers := [], incoming := none, mode := none, noted := false }
      offerWindow := some 3000, retryWait := none, noIncoming := false, partnerLost := false }
    let opened (p : Cause) : CallRec := ⟨s.cc.counter, p, 0, [], none, none, false, none, false, false⟩
    (s.cc.state = .offered → after ≠ .normal → becomes c.idled) ∧
    (∀ r, s.cc.call = some r → s.cc.state = .hold ∨ s.cc.state = .call → r.cause ≠ .scheduled → after = .normal →
      becomes c.idled ∧ (s.cc.state = .call → s.cc.offerWindow.isSome = true →
        abortFrame s 0 s.cfg.station r.number .withdrawn ∈ x.2)) ∧
    (∀ r, s.cc.call = some r → pending = none → s.cc.state ≠ .offered ∨ after = .normal →
      (after ≠ .normal ∨ r.cause = .scheduled ∨ (s.cc.state ≠ .hold ∧ s.cc.state ≠ .call)) → becomes c) ∧
    (∀ r p, s.cc.call = some r → pending = some p → after ≠ .normal → s.cc.state.outgoingCall = true →
      (p.code ≤ r.cause.code → becomes { c with pending := none }) ∧
      (r.cause.code < p.code →
        (s.cc.state = .hold → p = .fuelCritical → becomes (called { r with cause := p, attempts := 0 })) ∧
        (s.cc.state ≠ .hold ∨ p ≠ .fuelCritical →
          becomes { c with pending := none, call := some { r with cause := p, attempts := 0 } }))) ∧
    (s.cc.state = .idle → s.cc.call = none →
      (pending = none ∨ ¬ may → becomes c) ∧
      (∀ p, pending = some p → may →
        (p = .fuelCritical ∨ s.pt.figs.showActive = false → becomes (called (opened p))) ∧
        (p = .fuelLow → s.pt.figs.showActive = true →
          becomes { c with state := .hold, pending := none, call := some (opened p) })))) ∧
  (∀ (s : State) (b : Bool),
    let x := deliver (.cc (.showActive b)) s
    let next := (s.cc.counter + 1) % 256
    let held (d : Cc) (frame : List Report) : State × List Report :=
      ({ s with cc := { d with state := .hold } }, frame ++ enteringReports s.cc.state .hold)
    (s.cc.call = none → x = (s, [])) ∧
    (∀ r, s.cc.call = some r →
      let deferred := b = true ∧ r.cause ≠ .fuelCritical
      (s.cc.state = .hold → b = false → x =
        ({ s with cc := { s.cc with
            state := .call, counter := next
            call := some { r with number := next, offers := [], incoming := none, mode := none, noted := false }
            offerWindow := some 3000, retryWait := none, noIncoming := false, partnerLost := false } },
          .lc (.offer (groupFrame s.cfg .call 0 ([BitVec.ofNat 8 next, BitVec.ofNat 8 r.cause.code] ++
            beBytes 2 s.pcu.se.figure ++ [flagByte s.cfg.closedCap, BitVec.ofNat 8 s.cfg.station]))) ::
            enteringReports .hold .call)) ∧
      (s.cc.state = .call → deferred → x = held { s.cc with offerWindow := none, retryWait := none }
        (if s.cc.offerWindow.isSome then [refFrame s .hold 0 s.cfg.station r.number []] else [])) ∧
      (s.cc.state = .prepare → r.mode = some .open' → deferred → x = held { s.cc with
          call := some { r with incoming := none, mode := none, noted := false }, prepLimit := none }
        [refFrame s .hold (r.incoming.getD 0) s.cfg.station r.number []]) ∧
      (¬ (s.cc.state = .hold ∧ b = false) → ¬ (s.cc.state = .call ∧ deferred) →
        ¬ (s.cc.state = .prepare ∧ r.mode = some .open' ∧ deferred) → x = (s, [])))) ∧
  (∀ s : State,
    let x := deliver (.cc .serve) s
    let may := s.cfg.setFitted = true ∧ s.cc.state = .idle ∧ s.du.state = .onbus ∧ s.lc.duplicate = false
    let next := (s.cc.counter + 1) % 256
    let opened (n : Nat) (p : Cause) : CallRec := ⟨n, p, 0, [], none, none, false, none, false, false⟩
    (s.cc.pending = none ∨ ¬ may → x = (s, [])) ∧
    (∀ p, s.cc.pending = some p → may →
      (p ≠ .fuelCritical → s.pt.figs.showActive = true → x =
        ({ s with cc := { s.cc with state := .hold, pending := none, call := some (opened s.cc.counter p) } },
          enteringReports .idle .hold)) ∧
      (p = .fuelCritical ∨ s.pt.figs.showActive = false → x =
        ({ s with cc := { s.cc with
            state := .call, pending := none, counter := next, call := some (opened next p), offerWindow := some 3000
            retryWait := none, noIncoming := false, partnerLost := false } },
          .lc (.offer (groupFrame s.cfg .call 0 ([BitVec.ofNat 8 next, BitVec.ofNat 8 p.code] ++
            beBytes 2 s.pcu.se.figure ++ [flagByte s.cfg.closedCap, BitVec.ofNat 8 s.cfg.station]))) ::
            enteringReports .idle .call))) ∧
    (s.cc.call = none → s.cc.inc = none → ∀ b a : SetState, deliver (.cc (.setChanged b a)) s = x) ∧
    (∀ b a : SetState, .cc (.setChanged b a) ∈ moveReports b a))

/-- A CALL is answered with an OFFER by a standby that meets every condition; offers are ranked by readiness, hours
and station; the list holds one entry for each station, the new one in the place of its old one, and of more than
eight the best eight; at the end of the window the first is picked, or the attempt fails: a retry after 30 s, three
in all. The calling station is taken from the payload (log 43). The reports are handed on in the model's order (log
3). That an expiry whose timer stands still is void is the model's reading (log 5). -/
def Obligations.CallsOffersPicks : Prop :=
  (∀ (h : Header) (p : List Byte) (s : State), Accepts s h → FromStation h → p.length = 6 →
    let caller := fieldAt p 5 1
    let number := fieldAt p 0 1
    let may := s.cc.state = .idle ∧ s.lc.duplicate = false ∧ s.cfg.setFitted = true ∧ s.du.state ≠ .fault ∧
      s.du.breaker = false ∧ s.fu.threshold = .normal ∧ fieldAt p 2 2 ≤ s.cfg.rating ∧ s.du.startIntent = none
    (¬ may → exec (.callReceived h p) s = .next s.heard) ∧
    (may → exec (.callReceived h p) s = .next (State.handOn
      { s.heard with cc := { s.cc with
          state := .offered, inc := some ⟨caller, number, none, false, false⟩, offerTimer := some 5000 } } 2
      ([.lc (.offer (groupFrame s.cfg .offer caller
          ([BitVec.ofNat 8 caller, BitVec.ofNat 8 number] ++ beBytes 2 s.fu.hours ++
            [BitVec.ofNat 8 s.du.state.code] ++ beBytes 2 s.cfg.rating ++ [flagByte s.cfg.closedCap])))] ++
        enteringReports .idle .offered)))) ∧
  (∀ (h : Header) (p : List Byte) (s : State), Accepts s h → FromStation h → p.length = 8 →
    let mine (r : CallRec) := s.cc.state = .call ∧ s.cc.offerWindow.isSome = true ∧ fieldAt p 0 1 = s.cfg.station ∧
      fieldAt p 1 1 = r.number
    (s.cc.call = none → exec (.offerReceived h p) s = .next s.heard) ∧
    (∀ r, s.cc.call = some r → ¬ mine r → exec (.offerReceived h p) s = .next s.heard) ∧
    (∀ r, s.cc.call = some r → mine r → exec (.offerReceived h p) s = .next { s.heard with cc := { s.cc with
      call := some { r with offers := enterOffer r.offers (offerOf h.sender.toNat p) } } })) ∧
  (∀ (l : List Offer) (o : Offer),
    let others := l.filter fun x => decide (x.station ≠ o.station)
    let kept := enterOffer l o
    kept.length ≤ 8 ∧
    (l.Pairwise (fun a b => pickAhead b a = false) → kept.Pairwise (fun a b => pickAhead b a = false)) ∧
    ((l.map (·.station)).Nodup → (kept.map (·.station)).Nodup) ∧
    (∃ dropped, (kept ++ dropped).Perm (o :: others) ∧ (others.length < 8 → dropped = []) ∧
      (8 ≤ others.length → kept.length = 8) ∧
      (l.Pairwise (fun a b => pickAhead b a = false) → ∀ x ∈ kept, ∀ y ∈ dropped, pickAhead y x = false))) ∧
  (∀ a b : Offer, pickAhead a b = true ↔
    (a.ready = true ∧ b.ready = false) ∨ (a.ready = b.ready ∧
      (b.hours < a.hours ∨ (a.hours = b.hours ∧ a.station < b.station)))) ∧
  (∀ s : State, s.isUp = true →
    let gone := s.cc.call = none ∨ s.cc.state ≠ .call
    (gone ∨ s.cc.offerWindow = none → exec .offerWindowExpiry s = .next s) ∧
    (∀ r, s.cc.call = some r → s.cc.state = .call → s.cc.offerWindow.isSome = true →
      (r.offers = [] → r.attempts < 2 → exec .offerWindowExpiry s = .next { s with cc := { s.cc with
        call := some r.failed, offerWindow := none, prepLimit := none, retryWait := some 30000 } }) ∧
      (r.offers = [] → 2 ≤ r.attempts → exec .offerWindowExpiry s = .next (State.handOn
        { s with cc := { s.cc.idled with noIncoming := true } } 1 (enteringReports .call .idle ++ [.cc .serve]))) ∧
      (∀ o rest, r.offers = o :: rest →
        let mode : Mode := if s.cfg.closedCap ∧ o.closedCap then .closed' else .open'
        exec .offerWindowExpiry s = .next (State.handOn
          { s with cc := { s.cc with
              state := .prepare, call := some { r with incoming := some o.station, mode := some mode }
              offerWindow := none, prepLimit := some 160000 } } 1
          ([refFrame s .pick 0 s.cfg.station r.number [BitVec.ofNat 8 o.station, BitVec.ofNat 8 mode.code]] ++
            enteringReports .call .prepare ++ [.cc .checkSet])))) ∧
    (gone ∨ s.cc.retryWait = none → exec .retryWaitExpiry s = .next s) ∧
    (∀ r, s.cc.call = some r → s.cc.state = .call → s.cc.retryWait.isSome = true →
      let next := (s.cc.counter + 1) % 256
      exec .retryWaitExpiry s = .next (State.offered
        { s with cc := { s.cc with
            counter := next, call := some { r with
              number := next, offers := [], incoming := none, mode := none, noted := false }
            offerWindow := some 3000, retryWait := none, noIncoming := false, partnerLost := false } }
        (groupFrame s.cfg .call 0 ([BitVec.ofNat 8 next, BitVec.ofNat 8 r.cause.code] ++
          beBytes 2 s.pcu.se.figure ++ [flagByte s.cfg.closedCap, BitVec.ofNat 8 s.cfg.station])))) ∧
    (s.cc.state ≠ .offered ∨ s.cc.offerTimer = none → exec .offerTimerExpiry s = .next s) ∧
    (s.cc.state = .offered → s.cc.offerTimer.isSome = true → exec .offerTimerExpiry s = .next (State.handOn
      { s with cc := s.cc.idled } 1 (enteringReports .offered .idle ++ [.cc .serve]))))

/-- A PICK that names the station brings an OFFERED station to PREPARE with its set started, is refused by any other
with NOT AVAILABLE; one that names another ends the offer. READY is noted in CLOSED mode and begins the open
transition in OPEN mode. The prepare limit fails the attempt, the prepare timeout gives up with START FAIL. An
incoming station tests its own set as it enters PREPARE and at each change of it: READY is sent once for a set
READY, with a join asked for in CLOSED mode; ONBUS in CLOSED mode is STEP (CLOSED) and PARALLEL, in OPEN mode
nothing (log 50); a fault, a failed start or a failed join ends with an ABORT that says so. An OFFERED station whose
set faults or goes ONBUS is IDLE again. A call back in CALL is deferred at once while a show is active (log 32). The
reports are handed on in the model's order (log 3). That an expiry whose timer stands still is void is the model's
reading (log 5). -/
def Obligations.Preparation : Prop :=
  (∀ (h : Header) (p : List Byte) (s : State), Accepts s h → FromStation h → p.length = 4 →
    let caller := fieldAt p 0 1
    let number := fieldAt p 1 1
    let named := fieldAt p 2 1 = s.cfg.station
    let mine (r : IncRec) := s.cc.state = .offered ∧ r.caller = caller ∧ r.number = number
    (∀ r, s.cc.inc = some r → mine r → named → exec (.pickReceived h p) s = .next (State.handOn
      { s.heard with cc := { s.cc with
          state := .prepare, inc := some { r with mode := some (Mode.ofByte (byteAt p 3)) }, offerTimer := none
          prepTimeout := some 150000 } } 2
      (enteringReports .offered .prepare ++ [.du .reqStart, .cc .checkReady]))) ∧
    (∀ r, s.cc.inc = some r → mine r → ¬ named → exec (.pickReceived h p) s = .next (State.handOn
      { s.heard with cc := s.cc.idled } 2 (enteringReports .offered .idle ++ [.cc .serve]))) ∧
    ((∀ r, s.cc.inc = some r → ¬ mine r) →
      (named → exec (.pickReceived h p) s = .next (s.heard.offered (groupFrame s.cfg .abort h.sender.toNat
        [BitVec.ofNat 8 caller, BitVec.ofNat 8 number, 1]))) ∧
      (¬ named → exec (.pickReceived h p) s = .next s.heard))) ∧
  (∀ (h : Header) (p : List Byte) (s : State), Accepts s h → FromStation h → p.length = 2 →
    let mine (r : CallRec) := fieldAt p 0 1 = s.cfg.station ∧ fieldAt p 1 1 = r.number ∧
      r.incoming = some h.sender.toNat
    (s.cc.call = none → exec (.readyReceived h p) s = .next s.heard) ∧
    (∀ r, s.cc.call = some r →
      (¬ mine r ∨ s.cc.state ≠ .prepare ∨ r.mode = none ∨
        (r.mode = some .open' ∧ r.cause ≠ .fuelCritical ∧ s.pt.figs.showActive = true)) →
      exec (.readyReceived h p) s = .next s.heard) ∧
    (∀ r, s.cc.call = some r → mine r → s.cc.state = .prepare → r.mode = some .closed' →
      exec (.readyReceived h p) s =
        .next { s.heard with cc := { s.cc with call := some { r with noted := true } } }) ∧
    (∀ r, s.cc.call = some r → mine r → s.cc.state = .prepare → r.mode = some .open' →
      (r.cause = .fuelCritical ∨ s.pt.figs.showActive = false) →
      exec (.readyReceived h p) s = .next (State.handOn
        { s.heard with cc := { s.cc with state := .deadbus, prepLimit := none, gapLimit := some 10000 } } 2
        ([refFrame s .step h.sender.toNat s.cfg.station r.number [2]] ++ enteringReports .prepare .deadbus ++
          [.du .reqTrip])))) ∧
  (∀ s : State, s.isUp = true →
    (s.cc.call = none ∨ s.cc.state ≠ .prepare ∨ s.cc.prepLimit = none → exec .prepareLimitExpiry s = .next s) ∧
    (∀ r, s.cc.call = some r → s.cc.state = .prepare → s.cc.prepLimit.isSome = true →
      let told := abortFrame s (r.incoming.getD 0) s.cfg.station r.number .timeout
      (r.attempts < 2 → exec .prepareLimitExpiry s = .next (State.handOn
        { s with cc := { s.cc with
            state := .call, call := some r.failed, offerWindow := none, prepLimit := none
            retryWait := some 30000 } } 1
        ([told] ++ enteringReports .prepare .call ++ [.cc (.showActive s.pt.figs.showActive)]))) ∧
      (2 ≤ r.attempts → exec .prepareLimitExpiry s = .next (State.handOn
        { s with cc := { s.cc.idled with noIncoming := true } } 1
        ([told] ++ enteringReports .prepare .idle ++ [.cc .serve])))) ∧
    (s.cc.inc = none ∨ s.cc.state ≠ .prepare ∨ s.cc.prepTimeout = none →
      exec .prepareTimeoutExpiry s = .next s) ∧
    (∀ r, s.cc.inc = some r → s.cc.state = .prepare → s.cc.prepTimeout.isSome = true →
      exec .prepareTimeoutExpiry s = .next (State.handOn { s with cc := s.cc.idled } 1
        ([abortFrame s r.caller r.caller r.number .startFail] ++
          (if s.fli.inputs.busLive then [.du .reqStop] else []) ++ enteringReports .prepare .idle ++ [.cc .serve])))) ∧
  (∀ (s : State) (r : IncRec), s.cc.call = none → s.cc.inc = some r →
    let given (m : CcMsg) : State × List Report := deliver (.cc m) s
    let ready := refFrame s .ready r.caller r.caller r.number []
    let aborted (why : AbortReason) : State × List Report :=
      ({ s with cc := s.cc.idled }, [abortFrame s r.caller r.caller r.number why] ++
        (if s.fli.inputs.busLive then [.du .reqStop] else []) ++ enteringReports .prepare .idle ++ [.cc .serve])
    (s.cc.state = .prepare → ∀ m : CcMsg, m = .checkReady ∨ (∃ before after, m = .setChanged before after) →
      (s.du.state = .ready → r.readySent = true → given m = (s, [])) ∧
      (s.du.state = .ready → r.readySent = false → r.mode = some .closed' → given m =
        ({ s with cc := { s.cc with inc := some { r with readySent := true, joinAsked := true } } },
          [ready, .du .reqJoin])) ∧
      (s.du.state = .ready → r.readySent = false → r.mode ≠ some .closed' → given m =
        ({ s with cc := { s.cc with inc := some { r with readySent := true } } }, [ready])) ∧
      (s.du.state = .onbus → r.mode = some .closed' → given m =
        ({ s with cc := { s.cc with state := .parallel, prepTimeout := none } },
          stepFrame s r.caller r.caller r.number .closed' :: enteringReports .prepare .parallel)) ∧
      (s.du.state = .onbus → r.mode ≠ some .closed' → given m = (s, [])) ∧
      (s.du.state = .fault → given m = aborted .startFail) ∧
      (s.du.state ≠ .ready → s.du.state ≠ .onbus → s.du.state ≠ .fault → given m = (s, []))) ∧
    (s.cc.state = .prepare → given .startFail = aborted .startFail ∧
      (r.joinAsked = true → given .joinFail = aborted .joinFail) ∧
      (r.joinAsked = false → given .joinFail = (s, []))) ∧
    (s.cc.state ≠ .prepare → given .checkReady = (s, []) ∧ given .startFail = (s, []) ∧ given .joinFail = (s, [])) ∧
    (s.cc.state = .offered → ∀ before after,
      (after = .fault ∨ after = .onbus → given (.setChanged before after) =
        ({ s with cc := s.cc.idled }, enteringReports .offered .idle ++ [.cc .serve])) ∧
      (after ≠ .fault → after ≠ .onbus → given (.setChanged before after) = (s, []))))

/-- The partner's STEP, END, ABORT and HOLD, taken only with the call's reference and from the partner, carry the
handover on or end it, an ABORT's reason being kept; the gap limit and the end wait end what has not gone on. A
STATE of the partner that its row of Table 4-7 accepts goes on, as a frame where the row says so; another one, a
partner field other than the own number, and the loss of the partner end the relation as the row says. The own set
carries the handover on as well. Outgoing: off the bus before the transition it is an ABORT; in PARALLEL the TRIP of
the ramp is STEP (OPENED), and its outcome the END as the set is off (with no TRIP a free value, log 23), a fault,
an abandoned and a refused ramp end it; a TRIP FAIL ends DEADBUS; RELEASE ends as the set leaves COOLING or is found
out of it (log 24). Incoming: off the bus in PARALLEL it is an ABORT, in DEADBUS the join is asked for once on a
dead bus or with the caller off it, and ONBUS is STEP (CLOSED) and RELEASE. The partner field is taken to the letter
(log 22), an ABORT's reason is kept as the last one (log 54), and a call back in CALL is deferred at once while a
show is active (log 32). The reports are handed on in the model's order (log 3). That an expiry whose timer stands
still is void is the model's reading (log 5). -/
def Obligations.TransitionsAndEnds : Prop :=
  (∀ (h : Header) (p : List Byte) (s : State), Accepts s h → FromStation h →
    let named (r : CallRec) := fieldAt p 0 1 = s.cfg.station ∧ fieldAt p 1 1 = r.number ∧
      r.incoming = some h.sender.toNat
    let by_ (r : IncRec) := fieldAt p 0 1 = r.caller ∧ fieldAt p 1 1 = r.number ∧ h.sender.toNat = r.caller
    let treat : List Report := if s.fli.inputs.busLive then [.du .reqStop] else []
    let idle (c : Cc) (before : List Report) : State :=
      State.handOn { s.heard with cc := c.idled } 2 (before ++ enteringReports s.cc.state .idle ++ [.cc .serve])
    let kept : Cc := { s.cc with abortReason := some (byteAt p 2) }
    let released : Cc := { s.cc with state := .release, gapLimit := none, prepLimit := none }
    (p.length = 3 →
      (∀ r, s.cc.call = some r → named r → byteAt p 2 = 1 → s.cc.state = .prepare → r.mode = some .closed' →
        exec (.stepReceived h p) s = .next (State.handOn
          { s.heard with cc := { s.cc with state := .parallel, prepLimit := none } } 2
          (enteringReports .prepare .parallel ++ [.du .reqRamp]))) ∧
      (∀ r, s.cc.call = some r → named r → byteAt p 2 = 1 → s.cc.state = .release →
        exec (.stepReceived h p) s = .next (s.heard.offered (groupFrame s.cfg .ending h.sender.toNat
          [BitVec.ofNat 8 s.cfg.station, BitVec.ofNat 8 r.number, 1]))) ∧
      (∀ r, s.cc.call = some r → named r → byteAt p 2 = 1 → s.cc.state = .deadbus →
        exec (.stepReceived h p) s = .next (State.handOn { s.heard with cc := released } 2
          ([endFrame s h.sender.toNat s.cfg.station r.number .normal] ++ enteringReports .deadbus .release ++
            [.cc .checkRelease]))) ∧
      (∀ r, s.cc.call = none → s.cc.inc = some r → by_ r → byteAt p 2 = 2 → s.cc.state = .prepare →
        r.mode = some .open' →
        exec (.stepReceived h p) s = .next (State.handOn
          { s.heard with cc := { s.cc with
              state := .deadbus, inc := some { r with joinAsked := false }, prepTimeout := none
              gapLimit := some 10000 } } 2
          (enteringReports .prepare .deadbus ++ [.cc .checkDeadbus]))) ∧
      (∀ r, s.cc.call = none → s.cc.inc = some r → by_ r → byteAt p 2 = 3 → s.cc.state = .parallel →
        exec (.stepReceived h p) s = .next (State.handOn
          { s.heard with cc := { s.cc with
              state := .release, gapLimit := none, prepTimeout := none, endWait := some 10000 } } 2
          (enteringReports .parallel .release))) ∧
      (∀ r, s.cc.call = none → s.cc.inc = some r → by_ r → (s.cc.state = .parallel ∨ s.cc.state = .release) →
        exec (.endReceived h p) s = .next (idle s.cc [])) ∧
      (∀ r, s.cc.call = some r → named r → s.cc.state = .parallel →
        (r.outcome = none → exec (.abortReceived h p) s = .next (State.handOn
          { s.heard with cc := { kept.idled with partnerLost := true } } 2
          ([.du .reqResume] ++ enteringReports .parallel .idle ++ [.cc .serve]))) ∧
        (r.outcome.isSome = true → exec (.abortReceived h p) s =
          .next { s.heard with cc := { kept with call := some { r with lostLate := true } } })) ∧
      (∀ r, s.cc.call = some r → named r → s.cc.state = .deadbus →
        exec (.abortReceived h p) s = .next (State.handOn
          { s.heard with cc := { released with abortReason := some (byteAt p 2) } } 2
          (enteringReports .deadbus .release ++ [.cc .checkRelease]))) ∧
      (∀ r, s.cc.call = some r → named r → s.cc.state = .release →
        exec (.abortReceived h p) s = .next { s.heard with cc := kept }) ∧
      (∀ r, s.cc.call = some r → named r → s.cc.state = .prepare →
        (r.attempts < 2 → exec (.abortReceived h p) s = .next (State.handOn
          { s.heard with cc := { kept with
              state := .call, call := some r.failed, offerWindow := none, prepLimit := none
              retryWait := some 30000 } } 2
          (enteringReports .prepare .call ++ [.cc (.showActive s.pt.figs.showActive)]))) ∧
        (2 ≤ r.attempts → exec (.abortReceived h p) s = .next (State.handOn
          { s.heard with cc := { kept.idled with noIncoming := true } } 2
          (enteringReports .prepare .idle ++ [.cc .serve])))) ∧
      (∀ r, s.cc.call = none → s.cc.inc = some r → by_ r →
        ((s.cc.state = .offered ∨ s.cc.state = .parallel ∨ s.cc.state = .release) →
          exec (.abortReceived h p) s = .next (idle kept [])) ∧
        ((s.cc.state = .prepare ∨ s.cc.state = .deadbus) →
          exec (.abortReceived h p) s = .next (idle kept treat))) ∧
      ((∀ r, s.cc.call = some r → ¬ named r) → (∀ r, s.cc.inc = some r → ¬ by_ r) →
        exec (.stepReceived h p) s = .next s.heard ∧ exec (.endReceived h p) s = .next s.heard ∧
        exec (.abortReceived h p) s = .next s.heard)) ∧
    (p.length = 2 →
      (∀ r, s.cc.call = none → s.cc.inc = some r → by_ r →
        (s.cc.state = .offered → exec (.holdReceived h p) s = .next (idle s.cc [])) ∧
        (s.cc.state = .prepare → exec (.holdReceived h p) s = .next (idle s.cc treat))) ∧
      ((∀ r, s.cc.inc = some r → ¬ by_ r) → (∀ r, s.cc.call = some r → ¬ named r) →
        exec (.holdReceived h p) s = .next s.heard))) ∧
  (∀ s : State, s.isUp = true →
    (s.cc.state ≠ .deadbus ∨ s.cc.gapLimit = none → exec .gapLimitExpiry s = .next s) ∧
    (∀ r, s.cc.call = some r → s.cc.state = .deadbus → s.cc.gapLimit.isSome = true →
      exec .gapLimitExpiry s = .next (State.handOn
        { s with cc := { s.cc with state := .release, gapLimit := none, prepLimit := none } } 1
        (enteringReports .deadbus .release ++ [.cc .checkRelease]))) ∧
    (∀ r, s.cc.call = none → s.cc.inc = some r → s.cc.state = .deadbus → s.cc.gapLimit.isSome = true →
      exec .gapLimitExpiry s = .next (State.handOn { s with cc := s.cc.idled } 1
        ([abortFrame s r.caller r.caller r.number .gap] ++ (if s.fli.inputs.busLive then [.du .reqStop] else []) ++
          enteringReports .deadbus .idle ++ [.cc .serve]))) ∧
    (s.cc.state ≠ .release ∨ s.cc.endWait = none → exec .endWaitExpiry s = .next s) ∧
    (s.cc.state = .release → s.cc.endWait.isSome = true → exec .endWaitExpiry s = .next (State.handOn
      { s with cc := s.cc.idled } 1 (enteringReports .release .idle ++ [.cc .serve])))) ∧
  (∀ (s : State) (n : Nat) (e : PeerEntry), s.cc.partner = n → s.pt.find n = some e →
    let becomes (c : Cc) (rs : List Report) : State × List Report := ({ s with cc := c }, rs)
    let shown := deliver (.cc (.partnerState n)) s
    let lost := deliver (.cc (.peerLost n)) s
    let own := e.fields.partner = s.cfg.station
    let ho := e.fields.handover
    let treat : List Report := if s.fli.inputs.busLive then [.du .reqStop] else []
    let idle (before : List Report) : State × List Report :=
      becomes s.cc.idled (before ++ enteringReports s.cc.state .idle ++ [.cc .serve])
    let ends (accepted : List Handover) (as : State × List Report) : Prop :=
      lost = as ∧ (ho ∉ accepted ∨ ¬ own → shown = as)
    (∀ r, s.cc.call = none → s.cc.inc = some r →
      (s.cc.state = .offered → ends [.call, .prepare] (idle []) ∧
        (ho = .call ∨ ho = .prepare → own → shown = (s, []))) ∧
      (s.cc.state = .prepare → ends [.prepare, .deadbus] (idle treat) ∧
        (ho = .prepare → own → shown = (s, [])) ∧
        (ho = .deadbus → own → r.mode = some .closed' → shown = (s, [])) ∧
        (ho = .deadbus → own → r.mode = some .open' → shown =
          becomes { s.cc with
              state := .deadbus, inc := some { r with joinAsked := false }, prepTimeout := none
              gapLimit := some 10000 }
            (enteringReports .prepare .deadbus ++ [.cc .checkDeadbus]))) ∧
      (s.cc.state = .parallel → ends [.prepare, .parallel, .release] (idle []) ∧
        (ho = .prepare ∨ ho = .parallel → own → shown = (s, [])) ∧
        (ho = .release → own → shown =
          becomes { s.cc with
              state := .release, gapLimit := none, prepTimeout := none, endWait := some 10000 }
            (enteringReports .parallel .release))) ∧
      (s.cc.state = .deadbus → ends [.prepare, .deadbus, .release] (idle treat) ∧
        (ho = .prepare ∨ ho = .deadbus ∨ ho = .release → own → shown = deliver (.cc .checkDeadbus) s)) ∧
      (s.cc.state = .release → ends [.parallel, .deadbus] (idle []) ∧
        (ho = .parallel ∨ ho = .deadbus → own → shown = (s, [])))) ∧
    (∀ r, s.cc.call = some r → 1 ≤ n →
      (s.cc.state = .prepare →
        (r.attempts < 2 → ends [.offered, .prepare, .parallel]
          (becomes { s.cc with
              state := .call, call := some r.failed, offerWindow := none, prepLimit := none
              retryWait := some 30000 }
            (enteringReports .prepare .call ++ [.cc (.showActive s.pt.figs.showActive)]))) ∧
        (2 ≤ r.attempts → ends [.offered, .prepare, .parallel]
          (becomes { s.cc.idled with noIncoming := true }
            (enteringReports .prepare .idle ++ [.cc .serve]))) ∧
        (ho = .offered → own → shown = (s, [])) ∧
        (ho = .prepare → own → e.fields.setState ≠ .ready → shown = (s, [])) ∧
        (ho = .prepare → own → e.fields.setState = .ready → r.mode = some .closed' →
          shown = becomes { s.cc with call := some { r with noted := true } } []) ∧
        (ho = .prepare → own → e.fields.setState = .ready → r.mode = some .open' →
          (r.cause = .fuelCritical ∨ s.pt.figs.showActive = false) →
          shown = becomes { s.cc with state := .deadbus, prepLimit := none, gapLimit := some 10000 }
            (stepFrame s n s.cfg.station r.number .opening :: enteringReports .prepare .deadbus ++ [.du .reqTrip])) ∧
        (ho = .parallel → own → e.fields.onBus = true → r.mode = some .closed' →
          shown = becomes { s.cc with state := .parallel, prepLimit := none }
            (enteringReports .prepare .parallel ++ [.du .reqRamp]))) ∧
      (s.cc.state = .parallel →
        (r.outcome = none → ends [.prepare, .parallel, .release]
          (becomes { s.cc.idled with partnerLost := true }
            (.du .reqResume :: enteringReports .parallel .idle ++ [.cc .serve]))) ∧
        (r.outcome.isSome = true → ends [.prepare, .parallel, .release]
          (becomes { s.cc with call := some { r with lostLate := true } } [])) ∧
        (ho = .prepare ∨ ho = .parallel ∨ ho = .release → own → shown = (s, []))) ∧
      (s.cc.state = .deadbus → ends [.prepare, .deadbus, .release]
          (becomes { s.cc with state := .release, gapLimit := none, prepLimit := none }
            (enteringReports .deadbus .release ++ [.cc .checkRelease])) ∧
        (ho = .prepare ∨ ho = .deadbus → own → shown = (s, [])) ∧
        (ho = .release → own → e.fields.onBus = false → shown = (s, [])) ∧
        (ho = .release → own → e.fields.onBus = true → shown =
          becomes { s.cc with state := .release, gapLimit := none, prepLimit := none }
            (endFrame s n s.cfg.station r.number .normal :: enteringReports .deadbus .release ++
              [.cc .checkRelease]))) ∧
      (s.cc.state = .hold ∨ s.cc.state = .call ∨ s.cc.state = .release → shown = (s, [])))) ∧
  (∀ (s : State) (r : CallRec), s.cc.call = some r →
    let becomes (c : Cc) (rs : List Report) : State × List Report := ({ s with cc := c }, rs)
    let given (m : CcMsg) : State × List Report := deliver (.cc m) s
    let n := r.incoming.getD 0
    let abort (dest : Nat) (why : AbortReason) : List Report := [abortFrame s dest s.cfg.station r.number why]
    let ending (o : EndOutcome) : List Report := [endFrame s n s.cfg.station r.number o]
    let idle (c : Cc) (before : List Report) : State × List Report :=
      becomes c (before ++ enteringReports s.cc.state .idle ++ [.cc .serve])
    let early := s.cc.state = .hold ∨ s.cc.state = .call ∨ s.cc.state = .prepare
    let dropped : State × List Report := idle s.cc.idled
      (if s.cc.state = .prepare then abort n .offBus
       else if s.cc.state = .call ∧ s.cc.offerWindow.isSome then abort 0 .offBus else [])
    let gone (m : CcMsg) : Prop := given m = (s, [])
    (∀ a : SetState, early → a ≠ .onbus → given (.setChanged .onbus a) = dropped) ∧
    (∀ b a : SetState, early → b ≠ .onbus ∨ a = .onbus → gone (.setChanged b a)) ∧
    (s.cc.state = .prepare → s.du.state ≠ .onbus → given .checkSet = dropped) ∧
    (s.cc.state ≠ .prepare ∨ s.du.state = .onbus → gone .checkSet) ∧
    (s.cc.state = .parallel → ∀ b a : SetState,
      (a = .cooling ∨ a = .stopped → ∃ o, given (.setChanged b a) =
        becomes { s.cc with
            state := .release, gapLimit := none, prepLimit := none, partnerLost := s.cc.partnerLost || r.lostLate }
          (ending o ++ enteringReports .parallel .release ++ [.cc .checkRelease]) ∧
        ∀ q, r.outcome = some q → o = q) ∧
      (a = .fault → given (.setChanged b a) = idle s.cc.idled (ending .fault)) ∧
      (a ≠ .cooling → a ≠ .stopped → a ≠ .fault → gone (.setChanged b a))) ∧
    (s.cc.state = .parallel →
      (∀ o, given (.tripIssued o) = becomes { s.cc with call := some { r with outcome := some o } }
        ([stepFrame s n s.cfg.station r.number .opened])) ∧
      given .rampAbandoned = idle { s.cc.idled with partnerLost := true } (ending .abandoned) ∧
      given .rampRefused = idle s.cc.idled (abort n .offBus)) ∧
    (s.cc.state ≠ .parallel → (∀ o, gone (.tripIssued o)) ∧ gone .rampAbandoned ∧ gone .rampRefused) ∧
    (s.cc.state = .deadbus → given .tripFail = idle s.cc.idled (abort n .tripFail)) ∧
    (s.cc.state ≠ .deadbus → gone .tripFail) ∧
    (s.cc.state = .deadbus → ∀ b a : SetState,
      (a = .onbus ∨ a = .rampdown → gone (.setChanged b a)) ∧
      (a ≠ .onbus → a ≠ .rampdown → given (.setChanged b a) =
        becomes { s.cc with call := some { r with leftBus := true } } [])) ∧
    (s.cc.state = .release →
      (∀ b a : SetState, (a ≠ .cooling → given (.setChanged b a) = idle s.cc.idled []) ∧
        (a = .cooling → gone (.setChanged b a))) ∧
      (s.du.state ≠ .cooling → (s.du.state ≠ .onbus ∨ r.leftBus = true) →
        given .checkRelease = idle s.cc.idled []) ∧
      (s.du.state = .cooling ∨ (s.du.state = .onbus ∧ r.leftBus = false) → gone .checkRelease))) ∧
  (∀ (s : State) (r : IncRec), s.cc.call = none → s.cc.inc = some r →
    let becomes (c : Cc) (rs : List Report) : State × List Report := ({ s with cc := c }, rs)
    let given (m : CcMsg) : State × List Report := deliver (.cc m) s
    let off := ∃ e, s.pt.find r.caller = some e ∧ e.fields.onBus = false
    (s.cc.state = .parallel → ∀ b a : SetState,
      (a = .onbus ∨ a = .rampdown → given (.setChanged b a) = (s, [])) ∧
      (a ≠ .onbus → a ≠ .rampdown → given (.setChanged b a) = becomes s.cc.idled
        ([abortFrame s r.caller r.caller r.number .offBus] ++ enteringReports .parallel .idle ++ [.cc .serve]))) ∧
    (s.cc.state = .deadbus → ∀ m : CcMsg,
      m = .checkDeadbus ∨ (∃ b, m = .busLive b) ∨ (∃ b a, m = .setChanged b a) →
      (s.du.state = .onbus → given m =
        becomes { s.cc with
            state := .release, gapLimit := none, prepTimeout := none, endWait := some 10000 }
          (stepFrame s r.caller r.caller r.number .closed' :: enteringReports .deadbus .release)) ∧
      (s.du.state ≠ .onbus → r.joinAsked = false → s.fli.inputs.busLive = false ∨ off → given m =
        becomes { s.cc with inc := some { r with joinAsked := true } } ([.du .reqJoin])) ∧
      (s.du.state ≠ .onbus → r.joinAsked = true ∨ (s.fli.inputs.busLive = true ∧ ¬ off) → given m = (s, []))) ∧
    (s.cc.state = .release → ∀ b a : SetState, given (.setChanged b a) = (s, [])))

/-! ### Feeders -/

/-- The confirm window's expiry in overload sheds the head of the lowest class that has one, or waits; the settle
hold's end begins a new window while the overload lasts; the spacing's end tests restoration. The overload condition
is tested at each change of BUS LIVE and of C or L: beginning, it starts the confirm window; ceasing, it ends window
and waiting. A waiting attempt is repeated as the peers' class changes. A dead bus sheds every closed sheddable
feeder, and every one with a FON in flight, at once: each is on the shed list with cause DEAD BUS, one that stands
there in its place, an FOFF of an overload shed in flight carries on, and no other feeder is touched. Restoration
closes one feeder that fits, on a live bus with no timer running: the highest class first, in it the earliest entry.
It takes them in class and rotation order. The shed summary names the lowest class with a feeder closed and NORMAL,
and the listed feeders not PROTECTED; a changed one is reported, and a waiting attempt repeated, at each result of a
command and each hand operation. A feeder on the list does not count for the class, also while its dead-bus FOFF is
in flight (the model's choice, log 60). A handover that leaves PARALLEL or DEADBUS tests restoration. The reports
are handed on in the model's order (log 3). That an expiry whose timer stands still is void is the model's reading
(log 5). -/
def Obligations.SheddingAndRestoration : Prop :=
  (∀ (o : ClassOrder) (c : Sc),
    let able (n : FeederId) : Prop := (c.recs.get n).closed = true ∧ (c.recs.get n).failed = none ∧
      c.listed n = false ∧ (c.recs.get n).inFlight = none
    let idle (k : FeederClass) : Prop := ∀ n ∈ c.rotation k, ¬ able n
    (∀ k n, shedCandidate o c = some (k, n) ↔ ∃ lower higher ahead behind,
      [o.lowest, o.middle, o.highest] = lower ++ k :: higher ∧ c.rotation k = ahead ++ n :: behind ∧ able n ∧
        (∀ m ∈ ahead, ¬ able m) ∧ ∀ q ∈ lower, idle q) ∧
    (shedCandidate o c = none ↔ idle o.lowest ∧ idle o.middle ∧ idle o.highest)) ∧
  (∀ (s : State) (k : FeederClass), peerLower s k = true ↔
    ∃ q, s.pt.figs.lowestShed = some q ∧ priority s.cfg.order q < priority s.cfg.order k) ∧
  (∀ (g : Cfg) (c : Sc),
    let rank (e : ShedEntry) : Nat := priority g.order (g.cls.get e.feeder)
    let able (e : ShedEntry) : Prop := (c.recs.get e.feeder).failed = none
    (∀ n, restoreCandidate g c = some n ↔ ∃ ahead e behind, c.shedList = ahead ++ e :: behind ∧ e.feeder = n ∧
      able e ∧ (∀ x ∈ ahead, able x → rank x < rank e) ∧ ∀ x ∈ behind, able x → rank x ≤ rank e) ∧
    (restoreCandidate g c = none ↔ ∀ e ∈ c.shedList, ¬ able e)) ∧
  (∀ (c : Sc) (s : State),
    let y := overloadTest c s
    let heavy := s.fli.inputs.busLive = true ∧ s.cfg.overload * s.pt.figs.capacity < s.pt.figs.load * 100
    (heavy → c.overload = false → c.window = none → c.settle = none →
      y = { c with overload := true, window := some 2000 }) ∧
    (heavy → c.overload = true ∨ c.window.isSome = true ∨ c.settle.isSome = true → y = { c with overload := true }) ∧
    (¬ heavy → y = { c with overload := false, window := none, waiting := false })) ∧
  (∀ s : State, s.phase = .running → s.cfg.anyFeeder = true →
     let restore : Report := .sc .restoreTest
     (s.sc.window = none → exec .confirmWindowExpiry s = .next s) ∧
     (s.sc.window.isSome = true → s.sc.overload = false →
       exec .confirmWindowExpiry s = .next (State.handOn { s with sc := { s.sc with window := none } } 1 [restore])) ∧
     (s.sc.window.isSome = true → s.sc.overload = true →
       (shedCandidate s.cfg.order s.sc = none ∨
         (∃ k n, shedCandidate s.cfg.order s.sc = some (k, n) ∧ peerLower s k = true)) →
       exec .confirmWindowExpiry s =
         .next (State.handOn { s with sc := { s.sc with window := none, waiting := true } } 1 [restore])) ∧
     (∀ k n, s.sc.window.isSome = true → s.sc.overload = true → shedCandidate s.cfg.order s.sc = some (k, n) →
       peerLower s k = false →
       exec .confirmWindowExpiry s = .next (State.handOn
         { s with sc := { s.sc.putRec n { s.sc.recs.get n with inFlight := some .foffOverload, steady := false } with
             window := none, settle := some 10000, waiting := false } } 1
         [.fli (.command (.feeder n) .off), .sc .changed, restore])) ∧
     (s.sc.settle = none → exec .settleHoldExpiry s = .next s) ∧
     (s.sc.settle.isSome = true → exec .settleHoldExpiry s = .next (State.handOn
       { s with sc := { s.sc with
           settle := none
           window := if s.sc.overload = true ∧ s.sc.window = none then some 2000 else s.sc.window } } 1 [restore])) ∧
     (s.sc.spacing = none → exec .restoreSpacingExpiry s = .next s) ∧
     (s.sc.spacing.isSome = true → exec .restoreSpacingExpiry s =
       .next (State.handOn { s with sc := { s.sc with spacing := none } } 1 [restore])) ∧
     (let tested : State := { s with sc := overloadTest s.sc s }
      (∀ cls, cls = false ∨ tested.sc.waiting = false →
        deliver (.sc (.figures true cls)) s = (tested, [restore])) ∧
      deliver (.sc (.busLive true)) s = deliver restore tested) ∧
     (let again := deliver (.sc (.figures false true)) s
      (s.sc.waiting = false → again = (s, [])) ∧
      (s.sc.waiting = true → shedCandidate s.cfg.order s.sc = none → again = (s, [])) ∧
      (∀ k n, s.sc.waiting = true → shedCandidate s.cfg.order s.sc = some (k, n) →
        (peerLower s k = true → again = (s, [])) ∧
        (peerLower s k = false → again =
          ({ s with sc := { s.sc.putRec n { s.sc.recs.get n with inFlight := some .foffOverload, steady := false } with
              settle := some 10000, waiting := false } }, [.fli (.command (.feeder n) .off), .sc .changed])))) ∧
     (let y := (deliver (.sc (.busLive false)) s).1.sc
      let told := (deliver (.sc (.busLive false)) s).2
      let hit (n : FeederId) : Prop := (∃ k ∈ s.cfg.order.rising, n ∈ s.sc.rotation k) ∧
        (s.sc.recs.get n).failed = none ∧
        ((s.sc.recs.get n).closed = true ∨ (s.sc.recs.get n).inFlight = some .fon)
      y.settle = some 10000 ∧ y.window = none ∧ y.waiting = false ∧ y.overload = false ∧
      (∀ n, hit n → ⟨n, .deadBus⟩ ∈ y.shedList ∧ (∀ e ∈ y.shedList, e.feeder = n → e.cause = .deadBus) ∧
        y.recs.get n = { s.sc.recs.get n with
          steady := false
          inFlight := if (s.sc.recs.get n).inFlight = some .foffOverload then some .foffOverload
            else some .foffDeadBus } ∧
        .fli (.command (.feeder n) .off) ∈ told) ∧
      (∀ n, ¬ hit n → y.recs.get n = s.sc.recs.get n ∧ .fli (.command (.feeder n) .off) ∉ told ∧
        ∀ why, (⟨n, why⟩ ∈ y.shedList ↔ ⟨n, why⟩ ∈ s.sc.shedList)) ∧
      (∃ new, y.shedList.map (·.feeder) = s.sc.shedList.map (·.feeder) ++ new)) ∧
     (∀ n, restoreCandidate s.cfg s.sc = some n → s.fli.inputs.busLive = true → s.sc.window = none →
       s.sc.settle = none → s.sc.spacing = none → s.sc.fonInFlight = false → s.cc.state ≠ .parallel →
       s.cc.state ≠ .deadbus →
       let fits := (s.pt.figs.load + (s.sc.recs.get n).lastKw.getD 0) * 100 ≤ s.cfg.restore * s.pt.figs.capacity
       (fits → deliver restore s =
         ({ s with sc := { s.sc.putRec n { s.sc.recs.get n with inFlight := some .fon, steady := false } with
             spacing := some (5000 + 200 * s.cfg.station) } }, [.fli (.command (.feeder n) .on)])) ∧
       (¬ fits → deliver restore s = (s, []))) ∧
     ((s.fli.inputs.busLive = false ∨ s.sc.window.isSome = true ∨ s.sc.settle.isSome = true ∨
         s.sc.spacing.isSome = true ∨ s.sc.fonInFlight = true ∨ s.cc.state = .parallel ∨ s.cc.state = .deadbus ∨
         restoreCandidate s.cfg s.sc = none) → deliver restore s = (s, []))) ∧
  (∀ (g : Cfg) (c : Sc),
    let counts (k : FeederClass) : Prop := ∃ n ∈ c.rotation k, (c.recs.get n).closed = true ∧
      (c.recs.get n).failed = none ∧ c.listed n = false
    let classes := [g.order.lowest, g.order.middle, g.order.highest]
    ((summaryOf g c).cls = none ↔ ∀ k ∈ classes, ¬ counts k) ∧
    (∀ k, (summaryOf g c).cls = some k ↔ ∃ lower higher, classes = lower ++ k :: higher ∧ counts k ∧
      ∀ q ∈ lower, ¬ counts q) ∧
    (summaryOf g c).count = (c.shedList.filter fun e => decide (g.cls.get e.feeder ≠ .protectedClass)).length) ∧
  (∀ (c : Sc) (n : FeederId),
    let told (x : Act Sc) : Prop := x.2 = .sc .changed ::
      (if x.1.shedList ≠ c.shedList ∨ (c.fonInFlight = true ∧ x.1.fonInFlight = false) then [.sc .restoreTest] else [])
    (∀ k, told (scConfirmed c n k) ∧ told (scFailed c n k)) ∧ ∀ b, told (scUncommanded c n b)) ∧
  (∀ s : State, s.phase = .running → s.cfg.anyFeeder = true →
    let c := s.sc
    let sum := summaryOf s.cfg c
    let news : List Report := if sum = c.summary then [] else [.pt .reportable]
    let summed : State × List Report := ({ s with sc := { c with summary := sum } }, news)
    let x := deliver (.sc .changed) s
    (c.waiting = false ∨ shedCandidate s.cfg.order c = none → x = summed) ∧
    (∀ k n, c.waiting = true → shedCandidate s.cfg.order c = some (k, n) →
      (peerLower s k = true → x = summed) ∧
      (peerLower s k = false → x =
        ({ s with sc := { c.putRec n { c.recs.get n with inFlight := some .foffOverload, steady := false } with
            summary := sum, settle := some 10000, waiting := false } },
          news ++ [.fli (.command (.feeder n) .off), .sc .changed]))) ∧
    (∀ st, deliver (.sc (.handover st)) s =
      if st = .parallel ∨ st = .deadbus then deliver (.sc .restoreTest) s else (s, [])) ∧
    deliver (.sc .endOfStart) s = deliver (.sc (.busLive s.fli.inputs.busLive)) s ∧
    (let hits := (s.cfg.order.rising.flatMap c.rotation).filter fun n => decide ((c.recs.get n).failed = none ∧
       ((c.recs.get n).closed = true ∨ (c.recs.get n).inFlight = some .fon))
     let y := deliver (.sc (.busLive false)) s
     y.2 = hits.map (fun n => .fli (.command (.feeder n) .off)) ++ [.sc .changed] ∧
     (hits.Nodup → y.1.sc.shedList.map (·.feeder) =
       c.shedList.map (·.feeder) ++ hits.filter fun n => !c.listed n)))

/-- Each second a fitted, closed feeder on a live bus counts an energised second, and so does its accumulator in the
open interval; a feeder on the shed list that is not energised counts a second of shed time there; the interval
counts its own. At its window's expiry a feeder closed and untouched for the whole window latches the window's kW.
-/
def Obligations.SecondsOfTheFeeders : Prop :=
  (∀ (s : State) (n : FeederId), s.phase = .running → s.cfg.fitted.get n = true →
    let r := s.sc.recs.get n
    let calm : Bool := r.closed && r.inFlight.isNone
    ∃ t, exec (.windowExpiry (.f n)) s = .next t ∧
      t.sc.recs.get n = { r with
        lastKw := if r.steady && calm then some (t.pcu.get (.f n)).figure else r.lastKw
        steady := calm } ∧
      (∀ m, m ≠ n → t.sc.recs.get m = s.sc.recs.get m) ∧ t.sc.shedList = s.sc.shedList) ∧
  ∀ s : State, s.phase = .running →
    ∃ t, exec .scSecondTimer s = .next t ∧ t.bu.interval.seconds = s.bu.interval.seconds + 1 ∧
      t.sc.shedList = s.sc.shedList ∧ t.fu = s.fu ∧ t.bu.slots = s.bu.slots ∧
      ∀ n, s.cfg.fitted.get n = true →
        let on : Bool := (s.sc.recs.get n).closed && s.fli.inputs.busLive
        t.sc.recs.get n = { s.sc.recs.get n with
          energised := (s.sc.recs.get n).energised + (if on then 1 else 0) } ∧
        t.bu.interval.feeders.get n = (s.bu.interval.feeders.get n).map fun a =>
          { a with t := a.t + (if on then 1 else 0)
                   u := a.u + (if s.sc.listed n && !on then 1 else 0) }

/-! ### Fuel -/

/-- Hours-to-dry from the book and the burn rate, and the threshold state from it (Table 6-3), at each computation,
the one at a start with the standby rate and from NORMAL. A changed threshold state is told to the CC, the DU and
the PT; one other than NORMAL at the end of start-up is told as a change to it. -/
def Obligations.HoursAndThresholds : Prop :=
  (∀ (f : Fu) (s : State),
    let rate := if 0 < s.pcu.bf.figure then s.pcu.bf.figure else s.cfg.standby
    let h := hoursOf f.book (burnRate s)
    (f.book ≤ 0 → h = 0) ∧ (0 < f.book → rate = 0 → h = 9999) ∧
    (0 < f.book → 0 < rate → h = min 9999 (f.book.toNat * 10 / rate)) ∧
    (computeHours f s).1 =
      { f with hours := h, threshold := nextThreshold s.cfg.low s.cfg.critical f.threshold h } ∧
    (f.threshold = nextThreshold s.cfg.low s.cfg.critical f.threshold h → (computeHours f s).2 = []) ∧
    (f.threshold ≠ nextThreshold s.cfg.low s.cfg.critical f.threshold h →
      (computeHours f s).2 = [.cc (.threshold f.threshold (nextThreshold s.cfg.low s.cfg.critical f.threshold h)),
        .du .test, .pt .reportable])) ∧
  (∀ (low critical h : Nat) (st : Threshold), critical + 5 ≤ low →
    (h ≤ critical → nextThreshold low critical st h = .critical) ∧
    (critical < h → h ≤ low → st ≠ .critical → nextThreshold low critical st h = .low) ∧
    (critical < h → h < low + 10 → st = .critical →
      nextThreshold low critical st h = if h < critical + 10 then .critical else .low) ∧
    (low < h → h < low + 10 → st ≠ .critical → nextThreshold low critical st h = st) ∧
    (low + 10 ≤ h → nextThreshold low critical st h = .normal)) ∧
  (∀ s : State, s.cfg.tankFitted = true →
    (fuBringUp s).hours = hoursOf (fuBringUp s).book s.cfg.standby ∧
    (fuBringUp s).threshold = nextThreshold s.cfg.low s.cfg.critical .normal (fuBringUp s).hours) ∧
  (∀ s : State,
    (s.fu.threshold = .normal → deliver (.fu .endOfStart) s = (s, [])) ∧
    (s.fu.threshold ≠ .normal → deliver (.fu .endOfStart) s =
      (s, [.cc (.threshold .normal s.fu.threshold), .du .test, .pt .reportable])))

/-- A burned decilitre is taken from the oldest lot and costed at its price, an emptied lot leaving the queue with a
LOT CHANGE; with no lot it is overdrawn at the held price. A fill decilitre repays overdraw, else goes into the lot
of the visit's number, else opens one. Each moves the book by one. Which lot takes the repaid decilitres into its
delivered count, and the mark that remembers them, is the model's reading (log 35). -/
def Obligations.BurnsAndFills : Prop :=
  (∀ (f : Fu),
    (∀ l rest, f.lots = l :: rest → 1 < l.remaining →
      burnOne f = ({ f with lots := { l with remaining := l.remaining - 1 } :: rest },
        [.bu (.cost l.price), .sr (.touch .fuelBook)])) ∧
    (∀ l rest, f.lots = l :: rest → l.remaining = 1 →
      burnOne f = ({ f with lots := rest, heldPrice := l.price },
        [.bu (.cost l.price), .bu (.lotChange (l.number, l.price) (rest.head?.map fun x => (x.number, x.price))),
         .sr (.touch .fuelBook)])) ∧
    (f.lots = [] → f.overdraw < 500000 →
      burnOne f = ({ f with overdraw := f.overdraw + 1 }, [.bu (.cost f.heldPrice), .sr (.touch .fuelBook)])) ∧
    (f.lots = [] → f.overdraw = 500000 → burnOne f = (f, [.bu (.cost f.heldPrice)])) ∧
    (LotsSound f.lots → f.lots ≠ [] ∨ f.overdraw < 500000 → (burnOne f).1.book = f.book - 1)) ∧
  (∀ (f : Fu) (clock : Nat) (valid : Bool) (v : Visit), LotsSound f.lots → v.number ≠ 0 →
    let g := fillOne f clock valid v
    g.book = f.book + 1 ∧
    (0 < f.overdraw → g.lots = f.lots ∧ g.overdraw = f.overdraw - 1 ∧
      g.visit = some { v with visitDl := v.visitDl + 1, repaidDl := v.repaidDl + 1, repaying := true }) ∧
    (f.overdraw = 0 → g.visit = some { v with visitDl := v.visitDl + 1, repaying := false } ∧
      g.lotDelivered v.number =
        (if f.carries v.number then f.lotDelivered v.number + 1 else if v.repaying then v.repaidDl + 1 else 1)) ∧
    (f.overdraw = 0 → f.carries v.number = true → g.lots.length = f.lots.length) ∧
    (f.overdraw = 0 → f.carries v.number = false →
      ∃ l, g.lots = f.lots ++ [l] ∧ l.number = v.number ∧ l.price = v.price ∧ l.remaining = 1)) ∧
  (∀ (s : State) (n : Nat), s.fu.visiting = false → 0 < n →
    deliver (.fu (.fill n)) s = ({ s with fu := { s.fu with unbooked := min 4294967295 (s.fu.unbooked + n) } }, []))

/-- A reconciliation, by the timer after a visit or by RECONCILE: its record is written; within the tolerance the
book stays, beyond it the book becomes the level, by a shrink of the lots or a gain. With no level the timer's waits
for one; RECONCILE without tank or level, or during a visit, is refused. A shrink takes the lots oldest first and
adds their worth to the shrink value; a gain repays overdraw first, and the rest goes into the newest lot or a new
one at its price. The record holds each. A level that arrives lets a waiting one run. The layout of the answer is
the model's (log 20). The reports are handed on in the model's order (log 3). That an expiry whose timer stands
still is void is the model's reading (log 5). -/
def Obligations.ReconciliationsMatchTheLevel : Prop :=
  (∀ s : State,
     let reconciled (p : Nat) (o : ReconOrigin) (t : State) : Prop :=
       let d : Int := (p : Int) - s.fu.book
       t.fu.reconTimer = none ∧ t.fu.recon.origin = o ∧ t.fu.recon.level = p ∧
         t.fu.recon.bookBefore = s.fu.book ∧ t.fu.recon.difference = d ∧ t.fu.recon.clock = s.pt.clock ∧
         (d.natAbs ≤ s.cfg.tolerance → t.fu.lots = s.fu.lots ∧ t.fu.overdraw = s.fu.overdraw ∧
           t.fu.recon.action = .none ∧ t.fu.recon.corrected = 0) ∧
         (s.cfg.tolerance < d.natAbs → t.fu.book = p ∧ t.fu.recon.corrected = d.natAbs ∧
           t.fu.recon.action = if d < 0 then .shrink else .gain) ∧
         t.fu.recon.cancelled = (if 0 < d ∧ s.cfg.tolerance < d.natAbs then min s.fu.overdraw d.natAbs else 0) ∧
         t.fu.recon.shrunk = (if d < 0 ∧ s.cfg.tolerance < d.natAbs
           then (shrinkLots s.fu.heldPrice s.fu.lots d.natAbs).value else 0) ∧
         t.fu.shrinkValue = s.fu.shrinkValue + t.fu.recon.shrunk ∧
         t.pcu = s.pcu ∧ t.fli.inputs = s.fli.inputs ∧ t.pt.view = s.pt.view
     (s.isUp = true →
       (s.fu.reconTimer = none → exec .reconciliationTimerExpiry s = .next s) ∧
       (s.fu.reconTimer.isSome = true → s.pcu.level = none →
         exec .reconciliationTimerExpiry s =
           .next { s with fu := { s.fu with reconTimer := none, waitLevel := true } }) ∧
       (∀ p, s.fu.reconTimer.isSome = true → s.pcu.level = some p →
         ∃ t, exec .reconciliationTimerExpiry s = .next t ∧ reconciled p .afterVisit t)) ∧
     (∀ (h : Header) (tag : Byte), Commands s h → s.fli.inputs.lock = false →
       (s.cfg.tankFitted = false ∨ s.fu.visiting = true ∨ s.pcu.level = none →
         exec (.reconcile h tag []) s = .next (s.heard.answered (askOf h .reconcile tag) .state [])) ∧
       (∀ p, s.cfg.tankFitted = true → s.fu.visiting = false → s.pcu.level = some p →
         ∃ t, exec (.reconcile h tag []) s = .next t ∧ reconciled p .tool t ∧ t.fu.waitLevel = false))) ∧
  (∀ (held : Nat) (lots : List Lot) (q : Nat), (∀ l ∈ lots, 1 ≤ l.remaining) → ∃ gone kept, lots = gone ++ kept ∧
    let x := shrinkLots held lots q
    let taken := (gone.map (·.remaining)).sum
    let worth := (gone.map fun l => l.remaining * l.price).sum
    taken ≤ q ∧ (kept = [] → x.lots = [] ∧ x.value = worth) ∧
    (∀ l rest, kept = l :: rest → q - taken < l.remaining ∧
      x.lots = { l with remaining := l.remaining - (q - taken) } :: rest ∧
      x.value = worth + (q - taken) * l.price) ∧
    x.heldPrice = ((gone.getLast?).map (·.price)).getD held ∧ x.reports.length = gone.length ∧
    (∀ (i : Nat) (l : Lot), gone[i]? = some l → x.reports[i]? =
      some (Report.bu (.lotChange (l.number, l.price) (lots[i + 1]?.map fun m => (m.number, m.price)))))) ∧
  (∀ (lots : List Lot) (held g clock : Nat) (valid : Bool),
    let x := gainLots lots held g clock valid
    let entered (price : Nat) : Lot :=
      { number := 0, price := price, delivered := g, remaining := g, clock := clock, clockValid := valid }
    (lots = [] → x = [entered held]) ∧
    (∀ older l, lots = older ++ [l] →
      (l.number = 0 ∨ 8 ≤ lots.length → x =
        older ++ [{ l with delivered := l.delivered + g, remaining := l.remaining + g }]) ∧
      (l.number ≠ 0 → lots.length < 8 → x = lots ++ [entered l.price]))) ∧
  (∀ (f : Fu) (s : State) (o : ReconOrigin) (p : Nat),
    let d : Int := (p : Int) - f.book
    let n := d.natAbs
    let y := reconcile f s o p
    let lost := shrinkLots f.heldPrice f.lots n
    let repaid := min f.overdraw n
    let record (action : ReconAction) (corrected cancelled shrunk : Nat) : Recon :=
      { origin := o, clock := s.pt.clock, level := p, bookBefore := f.book, difference := d, action := action
        corrected := corrected, cancelled := cancelled, shrunk := shrunk }
    let shrunk : Fu := { f with
      lots := lost.lots, heldPrice := lost.heldPrice, shrinkValue := f.shrinkValue + lost.value
      recon := record .shrink n 0 lost.value }
    let gained : Fu := { f with
      overdraw := f.overdraw - repaid
      lots := if n ≤ f.overdraw then f.lots
        else gainLots f.lots f.heldPrice (n - repaid) s.pt.clock s.pt.clockValid
      recon := record .gain n repaid 0 }
    let done (x : Act Fu) : Prop := y.1 = (computeHours x.1 s).1 ∧
      y.2 = x.2 ++ [.sr (.touch .fuelBook), .sr (.touch .shrink)] ++ (computeHours x.1 s).2
    (n ≤ s.cfg.tolerance → y = ({ f with recon := record .none 0 0 0 }, [.sr (.touch .shrink)])) ∧
    (s.cfg.tolerance < n → d < 0 → done (shrunk, lost.reports)) ∧
    (s.cfg.tolerance < n → 0 < d → done (gained, []))) ∧
  (∀ (s : State) (p : Nat), s.pcu.level = some p →
    let timed := reconcile { s.fu with reconTimer := none } s .afterVisit p
    let asked := reconcile { s.fu with reconTimer := none, waitLevel := false } s .tool p
    (s.isUp = true → s.fu.reconTimer.isSome = true →
      exec .reconciliationTimerExpiry s = .next (State.handOn { s with fu := timed.1 } 1 timed.2)) ∧
    (s.cfg.tankFitted = true → s.fu.visiting = false → ∀ ask, deliver (.fu (.reconcile ask)) s =
      ({ s with fu := asked.1 }, asked.2 ++ [.lc (.answer ask .done (reconBytes asked.1.recon))])))

/-- DELIVERY OPEN from a terminal makes, refreshes or replaces the open-delivery record; a new one is claimed when
the conditions hold, and so is one whose repeat timer expires unvisited. DELIVERY CLOSE and the record's expiry
clear it, and another number replaces it, each ending a visit of its number. A claim carries the number, H, the free
space in whole litres and the free lot slots. That an expiry whose timer stands still is void is the model's reading
(log 5). -/
def Obligations.DeliveriesAreOpenedAndClosed : Prop :=
  (∀ (h : Header) (p : List Byte) (s : State), Accepts s h → p.length = 8 →
    let n := h.sender.toNat
    let number := fieldAt p 0 2
    let fresh : Delivery := ⟨number, fieldAt p 2 2, n, fieldAt p 4 4, false, 30000⟩
    let f : Fu := { s.fu with delivery := some fresh }
    (¬ FromTool h ∨ number = 0 ∨ s.cfg.tankFitted = false → exec (.deliveryOpen h p) s = .next s.heard) ∧
    (FromTool h → number ≠ 0 → s.cfg.tankFitted = true →
      (∀ d, s.fu.delivery = some d → d.number = number →
        exec (.deliveryOpen h p) s = .next { s.heard with fu := { s.fu with
          delivery := some { d with price := fieldAt p 2 2, truck := fieldAt p 4 4, terminal := n, age := 30000 } } }) ∧
      (s.fu.delivery = none ∨ (s.fu.delivery.map (·.number) ≠ some number ∧ s.fu.visiting = false) →
        (claimHolds f s fresh = true → exec (.deliveryOpen h p) s =
          .next (State.offered { s.heard with fu := { f with claimRepeat := some 60000 } }
            (terminalFrame .fillClaim n (claimPayload f s fresh)))) ∧
        (claimHolds f s fresh = false →
          exec (.deliveryOpen h p) s = .next { s.heard with fu := { f with claimRepeat := none } })) ∧
      (∀ d v, s.fu.delivery = some d → d.number ≠ number → s.fu.visit = some v → v.inProgress = true →
        v.number = d.number →
        let left : State := s.heard.visitEnded { s.fu with delivery := none, claimRepeat := none } v .recordReplaced
        let g : Fu := { left.fu with delivery := some fresh }
        (claimHolds g s fresh = true → exec (.deliveryOpen h p) s =
          .next (State.offered { left with fu := { g with claimRepeat := some 60000 } }
            (terminalFrame .fillClaim n (claimPayload g s fresh)))) ∧
        (claimHolds g s fresh = false → exec (.deliveryOpen h p) s = .next { left with fu := g })))) ∧
  (∀ (h : Header) (p : List Byte) (s : State), Accepts s h → p.length = 2 →
    let number := fieldAt p 0 2
    let cleared : Fu := { s.fu with delivery := none, claimRepeat := none }
    (¬ FromTool h ∨ number = 0 ∨ s.cfg.tankFitted = false ∨ s.fu.delivery.map (·.number) ≠ some number →
      exec (.deliveryClose h p) s = .next s.heard) ∧
    (FromTool h → number ≠ 0 → s.cfg.tankFitted = true → s.fu.delivery.map (·.number) = some number →
      (s.fu.visiting = false → exec (.deliveryClose h p) s = .next { s.heard with fu := cleared }) ∧
      (∀ v, s.fu.visit = some v → v.inProgress = true → v.number = number →
        exec (.deliveryClose h p) s = .next (s.heard.visitEnded cleared v .deliveryClosed)))) ∧
  (∀ s : State, s.isUp = true →
    let cleared : Fu := { s.fu with delivery := none, claimRepeat := none }
    (s.fu.delivery = none → exec .deliveryRecordExpiry s = .next s) ∧
    (∀ d, s.fu.delivery = some d →
      (s.fu.visiting = false → exec .deliveryRecordExpiry s = .next { s with fu := cleared }) ∧
      (∀ v, s.fu.visit = some v → v.inProgress = true → v.number = d.number →
        exec .deliveryRecordExpiry s = .next (s.visitEnded cleared v .recordExpired))) ∧
    (s.fu.claimRepeat = none → exec .claimRepeatExpiry s = .next s) ∧
    (s.fu.claimRepeat.isSome = true →
      (s.fu.delivery = none → exec .claimRepeatExpiry s = .next { s with fu := { s.fu with claimRepeat := none } }) ∧
      (∀ d, s.fu.delivery = some d → (d.visited = true ∨ claimHolds s.fu s d = false) →
        exec .claimRepeatExpiry s = .next { s with fu := { s.fu with claimRepeat := none } }) ∧
      (∀ d, s.fu.delivery = some d → d.visited = false → claimHolds s.fu s d = true →
        exec .claimRepeatExpiry s =
          .next (State.offered { s with fu := { s.fu with claimRepeat := some 60000 } }
            (terminalFrame .fillClaim d.terminal (claimPayload s.fu s d)))))) ∧
  (∀ (f : Fu) (s : State) (d : Delivery),
    let k := 10 * s.cfg.capacity
    let kf := k * s.cfg.fillLimit / 100
    let room : Int := (kf : Int) - f.book
    let p := claimPayload f s d
    (claimHolds f s d = true ↔ s.cfg.tankFitted = true ∧ s.lc.duplicate = false ∧
      (f.hours ≤ s.cfg.claimThr ∨ 40 * (k : Int) ≤ room * 100) ∧ f.book < (kf : Int) ∧
      (f.lots.length < 8 ∨ ∃ l ∈ f.lots, l.number = d.number) ∧ 0 < d.truck) ∧
    (d.number < 65536 → f.hours < 65536 → p.length = 7 ∧ fieldAt p 0 2 = d.number ∧ fieldAt p 2 2 = f.hours ∧
      fieldAt p 4 2 = min 65535 (room / 10).toNat ∧ fieldAt p 6 1 = 8 - f.lots.length))

/-- VISIT is replied to by the order of Table 7-3; an accepted one begins FLOWING with VALVE open, or PAUSED, by the
inputs as reported; with a change still kept at a start that bars it, VALVE stays closed (log 57). VISIT END, a flow
stall and the pause limit act on the visit in progress alone. FILL KEY, HIGH LEVEL and the book at the fill limit
pause a FLOWING visit; when the recorded cause clears, the next cause is recorded, the pause timer running on, or
the visit flows again; a key turned off replaces another cause. That an expiry whose timer stands still is void is
the model's reading (log 5). -/
def Obligations.VisitsAreJudged : Prop :=
  (∀ (h : Header) (p : List Byte) (s : State), Accepts s h → p.length = 2 →
    let number := fieldAt p 0 2
    let replied (code : Byte) : State :=
      s.heard.offered (terminalFrame .visitReply h.sender.toNat (beBytes 2 number ++ [code]))
    let room := s.fu.lots.length < 8 ∨ s.fu.carries number = true
    (¬ FromTool h ∨ number = 0 →
      exec (.visit h p) s = .next s.heard ∧ exec (.visitEnd h p) s = .next s.heard) ∧
    (FromTool h → number ≠ 0 →
      (s.cfg.tankFitted = false → exec (.visit h p) s = .next (replied 3)) ∧
      (s.cfg.tankFitted = true →
        (∀ v, s.fu.visit = some v → v.inProgress = true →
          exec (.visit h p) s = .next (replied (if v.number = number then 0 else 4))) ∧
        (s.fu.visiting = false → s.fu.delivery.map (·.number) ≠ some number →
          exec (.visit h p) s = .next (replied 1)) ∧
        (∀ d, s.fu.visiting = false → s.fu.delivery = some d → d.number = number →
          (¬ room → exec (.visit h p) s = .next (replied 2)) ∧
          (room →
            let base : Fu := { s.fu with
              delivery := some { d with visited := true }, claimRepeat := none, reconTimer := none, waitLevel := false }
            let begun (st : VisitState) : Option Visit := some ⟨st, number, d.price, h.sender.toNat, 0, 0, false⟩
            let paused (c : PauseCause) : State := { replied 0 with
              fu := { base with visit := begun (.paused c), flowStall := none, pauseTimer := some 600000 }
              fli := { s.fli with valve := false } }
            (s.fli.inputs.fillKey = false → exec (.visit h p) s = .next (paused .keyOff)) ∧
            (s.fli.inputs.fillKey = true → s.fli.inputs.highLevel = true →
              exec (.visit h p) s = .next (paused .highLevel)) ∧
            (s.fli.inputs.fillKey = true → s.fli.inputs.highLevel = false → (s.cfg.fillLimitDl : Int) ≤ s.fu.book →
              exec (.visit h p) s = .next (paused .fillLimit)) ∧
            (s.fli.inputs.fillKey = true → s.fli.inputs.highLevel = false → s.fu.book < (s.cfg.fillLimitDl : Int) →
              exec (.visit h p) s = .next { replied 0 with
                fu := { base with visit := begun .flowing, flowStall := some 120000, pauseTimer := none }
                fli := { s.fli with valve := s.fli.contact .fillKey && !s.fli.contact .highLevel } })))) ∧
      (∀ v, s.fu.visit = some v → v.inProgress = true → v.number = number →
        exec (.visitEnd h p) s = .next (s.heard.visitEnded s.fu v .terminalEnd)) ∧
      ((∀ v, s.fu.visit = some v → v.inProgress = false ∨ v.number ≠ number) →
        exec (.visitEnd h p) s = .next s.heard))) ∧
  (∀ s : State, s.isUp = true →
    (s.fu.flowStall = none ∨ s.fu.visit.map (·.state) ≠ some .flowing → exec .flowStallExpiry s = .next s) ∧
    (∀ v, s.fu.flowStall.isSome = true → s.fu.visit = some v → v.state = .flowing →
      exec .flowStallExpiry s = .next { s with
        fu := { s.fu with visit := some { v with state := .paused .flowStall }, flowStall := none
                          pauseTimer := some 600000 }
        fli := { s.fli with valve := false } }) ∧
    (s.fu.pauseTimer = none ∨ s.fu.visiting = false → exec .pauseTimerExpiry s = .next s) ∧
    (∀ v, s.fu.pauseTimer.isSome = true → s.fu.visit = some v → v.inProgress = true →
      exec .pauseTimerExpiry s = .next (s.visitEnded s.fu v .pauseLimit))) ∧
  (∀ (s : State) (held : Nat) (v : Visit), s.phase = .running → s.cfg.tankFitted = true → 20 ≤ held →
    s.fu.visit = some v →
    let taken (i : Input) (b : Bool) : State :=
      { s with fli := { s.fli with
          inputs := setInput s.fli.inputs i b
          valve := s.fli.valve && (i == .fillKey && b || i == .highLevel && !b) } }
    let recorded (t : State) (c : PauseCause) : State :=
      { t with fu := { s.fu with visit := some { v with state := .paused c } } }
    let paused (t : State) (c : PauseCause) : State :=
      { t with fu := { s.fu with visit := some { v with state := .paused c }, flowStall := none
                                 pauseTimer := some 600000 }
               fli := { t.fli with valve := false } }
    let flowing (t : State) : State :=
      { t with fu := { s.fu with visit := some { v with state := .flowing }, flowStall := some 120000
                                 pauseTimer := none }
               fli := { t.fli with valve := t.fli.contact .fillKey && !t.fli.contact .highLevel } }
    let full := (s.cfg.fillLimitDl : Int) ≤ s.fu.book
    let key (b : Bool) : Host.Outcome State Fault Refusal := exec (.inputChange .fillKey b held) s
    let high (b : Bool) : Host.Outcome State Fault Refusal := exec (.inputChange .highLevel b held) s
    let keyOn := taken .fillKey true
    let keyOff := taken .fillKey false
    (s.fli.inputs.fillKey = true →
      (v.state = .flowing → key false = .next (paused keyOff .keyOff)) ∧
      (v.state = .paused .highLevel ∨ v.state = .paused .fillLimit ∨ v.state = .paused .flowStall →
        key false = .next (recorded keyOff .keyOff)) ∧
      ((∃ c, v.state = .ended c) ∨ v.state = .paused .keyOff → key false = .next keyOff)) ∧
    (s.fli.inputs.fillKey = false →
      (v.state ≠ .paused .keyOff → key true = .next keyOn) ∧
      (v.state = .paused .keyOff →
        (s.fli.inputs.highLevel = true → key true = .next (recorded keyOn .highLevel)) ∧
        (s.fli.inputs.highLevel = false → full → key true = .next (recorded keyOn .fillLimit)) ∧
        (s.fli.inputs.highLevel = false → ¬ full → key true = .next (flowing keyOn)))) ∧
    (s.fli.inputs.highLevel = false →
      (v.state = .flowing → high true = .next (paused (taken .highLevel true) .highLevel)) ∧
      (v.state ≠ .flowing → high true = .next (taken .highLevel true))) ∧
    (s.fli.inputs.highLevel = true →
      (v.state ≠ .paused .highLevel → high false = .next (taken .highLevel false)) ∧
      (v.state = .paused .highLevel →
        (s.fli.inputs.fillKey = false → high false = .next (recorded (taken .highLevel false) .keyOff)) ∧
        (s.fli.inputs.fillKey = true → full → high false = .next (recorded (taken .highLevel false) .fillLimit)) ∧
        (s.fli.inputs.fillKey = true → ¬ full → high false = .next (flowing (taken .highLevel false)))))) ∧
  (∀ (f : Fu) (s : State) (v : Visit), f.visit = some v →
    let full := (s.cfg.fillLimitDl : Int) ≤ f.book
    let recorded (c : PauseCause) : Act Fu := ({ f with visit := some { v with state := .paused c } }, [])
    (v.state = .flowing → ¬ full → bookTest f s = (f, [])) ∧
    (v.state = .flowing → full → bookTest f s =
      ({ f with visit := some { v with state := .paused .fillLimit }, flowStall := none, pauseTimer := some 600000 },
        [.fli (.valve false)])) ∧
    (v.state = .paused .fillLimit → full → bookTest f s = (f, [])) ∧
    (v.state = .paused .fillLimit → ¬ full →
      (s.fli.inputs.fillKey = false → bookTest f s = recorded .keyOff) ∧
      (s.fli.inputs.fillKey = true → s.fli.inputs.highLevel = true → bookTest f s = recorded .highLevel) ∧
      (s.fli.inputs.fillKey = true → s.fli.inputs.highLevel = false → bookTest f s =
        ({ f with visit := some { v with state := .flowing }, flowStall := some 120000, pauseTimer := none },
          [.fli (.valve true)]))) ∧
    (v.state ≠ .flowing → v.state ≠ .paused .fillLimit → bookTest f s = (f, [])) ∧
    (v.inProgress = true → (deliver (.fu (.fill 1)) { s with fu := f }).1.fu =
      (computeHours (bookTest (fillOne f s.pt.clock s.pt.clockValid v) { s with fu := f }).1 { s with fu := f }).1) ∧
    (deliver (.fu (.burn 1)) { s with fu := f }).1.fu = (bookTest (burnOne f).1 { s with fu := f }).1)

/-! ### Accounts -/

/-- A COST frame enters, replaces or leaves alone its sender's cost entry. The close of an interval makes the own
entry, removes the old peer entries, forms the sums over the own entry and the unused ones, and from them the
blended rate; the entries that took part are marked used, and every posting of the close carries that rate and RATE
HELD where no energy stood. The order of the entries is the model's (log 37). -/
def Obligations.CostsMakeTheRate : Prop :=
  (∀ (h : Header) (p : List Byte) (s : State), Accepts s h → FromStation h → p.length = 15 →
    let n := h.sender.toNat
    let fresh : CostEntry := ⟨n, fieldAt p 1 4, fieldAt p 5 5, fieldAt p 10 5, false⟩
    let entered (l : List CostEntry) : State := { s.heard with bu := { s.bu with costPeers := l } }
    let old := s.bu.costPeers.find? (·.station == n)
    (fresh.e = 0 → exec (.costReceived h p) s = .next s.heard) ∧
    (∀ x, fresh.e ≠ 0 → old = some x → x.endClock < fresh.endClock →
      exec (.costReceived h p) s =
        .next (entered (s.bu.costPeers.map fun y => if y.station = n then fresh else y))) ∧
    (∀ x, fresh.e ≠ 0 → old = some x → fresh.endClock ≤ x.endClock →
      exec (.costReceived h p) s = .next s.heard) ∧
    (fresh.e ≠ 0 → old = none → s.bu.costPeers.length < 15 →
      exec (.costReceived h p) s = .next (entered (s.bu.costPeers ++ [fresh]))) ∧
    (fresh.e ≠ 0 → old = none → 15 ≤ s.bu.costPeers.length → exec (.costReceived h p) s = .next s.heard)) ∧
  (∀ (b : Bu) (s : State) (v : Nat),
    let kept := b.costPeers.filter fun x => !decide (x.endClock + 2 * s.cfg.intervalLen * 60 < v)
    let unused := kept.filter fun x => !x.used
    let e := b.interval.setE + (unused.map (·.e)).sum
    let c := b.interval.setC + (unused.map (·.c)).sum
    let r := if e = 0 then b.rate else min 999999 ((c * 100 + e / 2) / e)
    let x := (closeInterval b s v).1
    x.costOwn = some ⟨s.cfg.station, v, b.interval.setE, b.interval.setC, false⟩ ∧
    x.costPeers = kept.map (fun y => { y with used := true }) ∧ x.rate = r ∧
    x.interval = openInterval s.cfg v ∧ (r ≠ b.rate → .sr (.touch .rate) ∈ (closeInterval b s v).2) ∧
    (∀ y ∈ x.journal, y ∈ b.journal ∨ (y.rate = r ∧ y.rateHeld = decide (e = 0) ∧ y.endClock = v))) ∧
  State.reset.bu.rate = 0

/-- The open interval takes up each energy unit, cost, second and LOT CHANGE, its energies and costs held at their
largest values, and is handed to the SR at each change. The units of a total are booked one at a time: the first
begins a write of the record, and each one after it marks the record for a further write (log 12). The band in force
at a minute of day is the one that starts latest at or before it, else the latest of all, of two that start together
the one with the higher index. A close sends a COST frame when the set made energy, and hands the PT the new clock
floor. The end point of an interval is the first boundary after the value it is reckoned from. An interval closes at
a step that reaches its end point and once at a jump at or past it, and takes band and end point as the clock
becomes valid. The charge of a feeder and its posting: no part of a charge is lost, since lifetime and carry rise by
it together. STATEMENT CLOSE keeps the figures of the moment as a statement, at most four, and sets them to 0. The
reports are handed on in the model's order (log 3). -/
def Obligations.ChargesPostingsStatements : Prop :=
  (∀ s : State,
    let i := s.bu.interval
    let after (m : BuMsg) : Bu := (deliver (.bu m) s).1.bu
    let touched (m : BuMsg) (rest : List Report) : Prop :=
      (deliver (.bu m) s).2 = (if (after m).interval = i then [] else [.sr (.touch .interval)]) ++ rest
    (deliver (.bu (.seUnits 0)) s = (s, []) ∧ ∀ n, deliver (.bu (.fUnits n 0)) s = (s, [])) ∧
    (∀ k, after (.seUnits (k + 1)) = { s.bu with interval := { i with setE := min 1099511627775 (i.setE + 1) } } ∧
      touched (.seUnits (k + 1)) (if k = 0 then [] else [.bu (.seUnits k)])) ∧
    (∀ n k, after (.fUnits n (k + 1)) = { s.bu with interval := { i with
        feeders := i.feeders.put n ((i.feeders.get n).map fun a => { a with e := min 4294967295 (a.e + 1) }) } } ∧
      touched (.fUnits n (k + 1)) (if k = 0 then [] else [.bu (.fUnits n k)])) ∧
    (∀ p, after (.cost p) = { s.bu with interval := { i with setC := min 1099511627775 (i.setC + p) } }) ∧
    (∀ x y, after (.lotChange x y) = { s.bu with interval := { i with lotChange := true } }) ∧
    (∀ n, (after (.energised n)).interval.feeders.get n = (i.feeders.get n).map (fun a => { a with t := a.t + 1 }) ∧
      ∀ m, m ≠ n → (after (.energised n)).interval.feeders.get m = i.feeders.get m) ∧
    (∀ m : BuMsg, ((∃ p, m = .cost p) ∨ (∃ x y, m = .lotChange x y) ∨ (∃ n, m = .energised n)) → touched m [])) ∧
  (∀ (s : State) (t : BitVec 32),
    let i := s.bu.interval
    let units := min (t - s.bu.heldSe).toNat (1099511627775 - i.setE)
    i.setE ≤ 1099511627775 → s.handOn 1 [.bu (.seTotal t)] = { s with
      bu := { s.bu with heldSe := t, interval := { i with setE := i.setE + units } }
      store := s.store.booked { i with setE := i.setE + 1 } units }) ∧
  (∀ (s : State) (n : FeederId) (t : BitVec 32),
    let i := s.bu.interval
    let held := s.bu.heldF.put n t
    (i.feeders.get n = none →
      s.handOn 1 [.bu (.fTotal n t)] = { s with bu := { s.bu with heldF := held } }) ∧
    (∀ a, i.feeders.get n = some a → a.e ≤ 4294967295 →
      let units := min (t - s.bu.heldF.get n).toNat (4294967295 - a.e)
      let with_ (k : Nat) : Interval := { i with feeders := i.feeders.put n (some { a with e := a.e + k }) }
      s.handOn 1 [.bu (.fTotal n t)] = { s with
        bu := { s.bu with heldF := held, interval := with_ units }, store := s.store.booked (with_ 1) units })) ∧
  (∀ (g : Cfg) (v : Nat),
    let b (j : FeederId) : Band := g.bands.get j
    let minute := v % 86400 / 60
    let last (ok : Nat → Prop) (j : FeederId) : Prop := (b j).inUse = true ∧ ok (b j).start ∧
      ∀ q, (b q).inUse = true → ok (b q).start →
        (b q).start < (b j).start ∨ ((b q).start = (b j).start ∧ q.index ≤ j.index)
    let inForce (j : FeederId) : Prop := last (· ≤ minute) j ∨
      ((∀ q, (b q).inUse = true → minute < (b q).start) ∧ last (fun _ => True) j)
    (∀ j, inForce j → takeBand g v = some ⟨j.index, (b j).m, (b j).s, (b j).g⟩) ∧
    (takeBand g v = none ↔ ∀ j, (b j).inUse = false)) ∧
  (∀ (b : Bu) (s : State) (v : Nat),
    let told := (closeInterval b s v).2
    let i := b.interval
    (told.filter fun r => match r with | .lc _ => true | _ => false) = (if i.setE = 0 then []
      else [.lc (.offer { kind := .cost, group := s.cfg.group, dest := 0, attempts := 0, answerOf := none
                          payload := BitVec.ofNat 8 s.cfg.station ::
                            (beBytes 4 v ++ beBytes 5 i.setE ++ beBytes 5 i.setC) })]) ∧
    .pt (.intervalClosed v) ∈ told ∧ .sr (.touch .interval) ∈ told ∧
    deliver (.pt (.intervalClosed v)) s =
      ({ s with pt := { s.pt with floor := v } }, [.sr (.touch .clockFloor)])) ∧
  (∀ (g : Cfg) (v : Nat), g.intervalLen ∈ [1, 2, 3, 4, 5, 6, 10, 12, 15] →
    (∀ n, (g.bands.get n).inUse = true → (g.bands.get n).start ≤ 1439) →
    let boundary (w : Nat) : Prop := w % 86400 % (g.intervalLen * 60) = 0 ∨
      ∃ n, (g.bands.get n).inUse = true ∧ w % 86400 = 60 * (g.bands.get n).start
    v < endPointAfter g v ∧ boundary (endPointAfter g v) ∧ (∀ w, v < w → boundary w → endPointAfter g v ≤ w) ∧
    (openInterval g v).openClock = v ∧ (openInterval g v).openValid = true ∧
    (openInterval g v).band = takeBand g v ∧ (openInterval g v).endPoint = some (endPointAfter g v) ∧
    (openInterval g v).setE = 0 ∧ (openInterval g v).setC = 0 ∧ (openInterval g v).seconds = 0 ∧
    (openInterval g v).lotChange = false) ∧
  (∀ s : State,
    let i := s.bu.interval
    let told (c : ClockChange) : Bu := (deliver (.bu (.clock c)) s).1.bu
    let closed (v : Nat) : Bu := (closeInterval s.bu s v).1
    (∀ w, (i.band = none → told (.becomingValid w) = { s.bu with
        interval := { i with band := takeBand s.cfg w, endPoint := some (endPointAfter s.cfg w) } }) ∧
      (i.band.isSome = true → told (.becomingValid w) = s.bu)) ∧
    (∀ v, (i.endPoint = some v → told (.step v) = closed v) ∧ (i.endPoint ≠ some v → told (.step v) = s.bu)) ∧
    (∀ u v, (∀ e, i.endPoint = some e → e ≤ v → told (.jump u v) = closed v) ∧
      (∀ e, i.endPoint = some e → v < e → told (.jump u v) = s.bu) ∧
      (i.endPoint = none → told (.jump u v) = s.bu))) ∧
  (∀ (rate : Nat) (b : BandTaken) (e t : Nat),
    charge rate b e t = min e 16777215 * (rate * b.m + 100 * b.s) + t * b.g) ∧
  (∀ (x : Slot) (p e t u clock : Nat),
    let y := x.post p e t u clock
    y.lifetime * 100000 + y.carry = x.lifetime * 100000 + x.carry + p ∧ y.carry < 100000 ∧
    y.lifetime = x.lifetime + (p + x.carry) / 100000 ∧ y.running = x.running + (p + x.carry) / 100000 ∧
    y.energy = x.energy + e ∧ y.energised = x.energised + t ∧ y.shed = x.shed + u ∧ y.postings = x.postings + 1 ∧
    y.lastClock = some clock ∧ y.tenant = x.tenant ∧ y.statements = x.statements) ∧
  (∀ (k : CloseTerms) (b : Bu) (n : FeederId) (a : FeederAcc) (i : Nat) (x : Slot),
    findSlot b.slots a.tenant = some (i, x) →
    let y := (postFeeder k b n a).1
    y.slots = b.slots.set i (x.post (charge k.rate k.band a.e a.t) (min a.e 16777215) a.t a.u k.clock) ∧
    y.postingNumber = (b.postingNumber + 1) % 4294967296 ∧
    (y.journal.getLast?.map (·.number)) = some y.postingNumber ∧
    (y.journal.getLast?.map (·.clamped)) = some (decide (16777215 < a.e))) ∧
  (∀ (h : Header) (tag : Byte) (params : List Byte) (s : State), Commands s h → params.length = 2 →
    s.fli.inputs.lock = false →
    let code := beNat params
    let ask := askOf h .statementClose tag
    (code < 1 ∨ 4095 < code → exec (.statementClose h tag params) s = .next (s.heard.answered ask .range [])) ∧
    (1 ≤ code → code ≤ 4095 → s.bu.slots.findIdx? (·.tenant == code) = none →
      exec (.statementClose h tag params) s = .next (s.heard.answered ask .state [])) ∧
    (∀ i x, 1 ≤ code → code ≤ 4095 → s.bu.slots.findIdx? (·.tenant == code) = some i → s.bu.slots[i]? = some x →
      let st : Statement := ⟨x.stmtCount, s.pt.clock, s.pt.clockValid, x.running, x.energy, x.energised, x.shed⟩
      let y := x.close st
      exec (.statementClose h tag params) s = .next (State.handOn
        { s.heard with bu := { s.bu with slots := s.bu.slots.set i y } } 2
        [.sr (.touch (slotRecord i)), .lc (.answer ask .done (statementBytes st))]) ∧
      y.running = 0 ∧ y.energy = 0 ∧ y.energised = 0 ∧ y.shed = 0 ∧ y.stmtCount = x.stmtCount + 1 ∧
      y.lifetime = x.lifetime ∧ y.carry = x.carry ∧ y.postings = x.postings ∧
      (x.statements.length ≤ 4 → y.statements.length = min 4 (x.statements.length + 1)) ∧
      y.statements.getLast? = some st))

/-! ### The line -/

/-- A frame offered to the queue: a STATE replaces the waiting one in its place, else the frame goes behind the
others, a full queue discards it, and under DUPLICATE only STATE is taken. An ANSWER part that leaves brings the
next part, or the end of the answer, and makes a restart that waits for it ready. The head's access wait; an
attempt; a frame sent; a character read back with another value or as a bad one, with its backoff of 2 to 32
character times or the sixth attempt's end; the backoff's end; a start bit. How long a frame counts as read back is
the model's reading (log 15). An answer fills the buffer with sub-kind, tag, result and data, and its part 0 is
offered at once; a refused part ends it. Its serial is the model's (log 45), and so is what the levels of the line
stand for (log 61). The draw is a free value (log 17). That an expiry whose timer stands still is void is the
model's reading (log 5). -/
def Obligations.LineEvents : Prop :=
  (∀ (l : Lc) (n : Nat) (g : TxFrame),
    let f : TxFrame := { g with attempts := 0 }
    let kept (q : List TxFrame) : Lc × Bool := (kick { l with queue := q } n, true)
    let lead := if l.sending then l.queue.take 1 else []
    let rest := if l.sending then l.queue.drop 1 else l.queue
    let behind := if l.queue.length < 8 then kept (l.queue ++ [f]) else (l, false)
    (l.enabled = false ∨ (l.duplicate = true ∧ g.kind ≠ .state) → offerFrame l n g = (l, false)) ∧
    (l.enabled = true → l.duplicate = false → g.kind ≠ .state → offerFrame l n g = behind) ∧
    (l.enabled = true → g.kind = .state → (∀ x ∈ rest, x.kind ≠ .state) → offerFrame l n g = behind) ∧
    (∀ a x b, l.enabled = true → g.kind = .state → rest = a ++ x :: b → x.kind = .state →
      (∀ y ∈ a, y.kind ≠ .state) → offerFrame l n g = kept (lead ++ a ++ f :: b))) ∧
  (∀ (l : Lc) (n k : Nat) (f : TxFrame),
    let r : Lc := { l with restart := if l.restart = .waiting k then .ready else l.restart }
    let left := frameLeft l n f
    (f.answerOf = none → left = l) ∧
    (f.answerOf = some k → (∀ a, l.answer = some a → a.serial ≠ k) → left = r) ∧
    (∀ a, f.answerOf = some k → l.answer = some a → a.serial = k →
      let part : TxFrame := { terminalFrame .answer a.ask.sender
        ([a.ask.subKind, a.ask.tag, BitVec.ofNat 8 a.result.code, BitVec.ofNat 8 a.next,
          BitVec.ofNat 8 (partCount a.data)] ++ (a.data.drop (a.next * 43)).take 43) with answerOf := some k }
      (partCount a.data ≤ a.next → left = { r with answer := none }) ∧
      (a.next < partCount a.data → (offerFrame r n part).2 = true →
        left = { (offerFrame r n part).1 with answer := some { a with next := a.next + 1 } }) ∧
      (a.next < partCount a.data → (offerFrame r n part).2 = false → left = { r with answer := none }))) ∧
  (∀ d : List Byte, 1 ≤ partCount d ∧ d.length ≤ 43 * partCount d ∧ (d ≠ [] → 43 * partCount d < d.length + 43)) ∧
  (∀ (l : Lc) (n : Nat),
    (kick l n).access = (if l.enabled ∧ l.sending = false ∧ l.backoff = none ∧ (l.rx.inFrame = false ∨ l.rx.own = true)
      then l.queue.head?.map fun f => (if f.kind.urgent then 3 else 6) + n % 8 else none) ∧
    kick l n = { l with access := (kick l n).access } ∧ 2 ≤ backoffOf l ∧ backoffOf l ≤ 32) ∧
  (∀ s : State, s.isUp = true →
    let line (l : Lc) : State := { s with lc := l }
    let kicked (l : Lc) : State := line (kick l s.cfg.station)
    (s.lc.access = none ∨ s.lc.queue = [] ∨ s.lc.sending = true → exec .accessWaitComplete s = .next s) ∧
    (∀ f rest, s.lc.access.isSome = true → s.lc.queue = f :: rest → s.lc.sending = false →
      exec .accessWaitComplete s = .next (line { s.lc with
        access := none, sending := true, rx := Rx.begun true
        queue := { f with attempts := f.attempts + 1 } :: rest })) ∧
    (s.lc.sending = false ∨ s.lc.queue = [] → exec .frameSent s = .next s) ∧
    (∀ f rest, s.lc.sending = true → s.lc.queue = f :: rest →
      exec .frameSent s = .next (kicked (frameLeft { s.lc with
        sending := false, rx := { s.lc.rx with whole := true }, queue := rest } s.cfg.station f)) ∧
      (∀ place bits, s.mismatch place bits = true → 6 ≤ f.attempts → exec (.collision place bits) s =
        .next (kicked (frameLeft { s.lc with sending := false, queue := rest } s.cfg.station f))) ∧
      (∀ place bits, s.mismatch place bits = true → f.attempts < 6 → f.kind = .state →
        (∃ g ∈ rest, g.kind = .state) → exec (.collision place bits) s =
          .next (kicked { s.lc with sending := false, queue := rest }))) ∧
    (∀ f rest, s.lc.sending = true → s.lc.queue = f :: rest → f.attempts < 6 →
      (f.kind ≠ .state ∨ ∀ g ∈ rest, g.kind ≠ .state) → ∀ place bits, s.mismatch place bits = true →
      exec (.collision place bits) s = .next (line { s.lc with
        sending := false, access := none, backoff := some (backoffOf s.lc)
        prng := Config.prngNext s.lc.draws s.lc.prng, draws := s.lc.draws + 1 })) ∧
    (s.lc.backoff = none → exec .backoffExpiry s = .next s) ∧
    (s.lc.backoff.isSome = true → exec .backoffExpiry s = .next (kicked { s.lc with backoff := none })) ∧
    (s.lc.enabled = false → exec .lineStartBit s = .next s) ∧
    (s.lc.enabled = true → exec .lineStartBit s = .next (kicked { s.lc with rx := Rx.begun s.lc.sending }))) ∧
  (∀ (l : Lc) (n : Nat) (ask : Ask) (r : Result) (data : List Byte),
    let kept := if r = .done then data else []
    let m : Lc := { l with answerSeq := l.answerSeq + 1 }
    let part : TxFrame := { terminalFrame .answer ask.sender
      ([ask.subKind, ask.tag, BitVec.ofNat 8 r.code, 0, BitVec.ofNat 8 (partCount kept)] ++ kept.take 43) with
      answerOf := some l.answerSeq }
    ((offerFrame m n part).2 = true → giveAnswer l n ask r data =
      ({ (offerFrame m n part).1 with
          answer := some { serial := l.answerSeq, ask := ask, result := r, data := kept, next := 1 } }, true)) ∧
    ((offerFrame m n part).2 = false → giveAnswer l n ask r data = ({ m with answer := none }, false))) ∧
  (∀ (s : State) (place : Nat) (readback : List Bool),
    (s.sentCharacters = if s.lc.sending = true then
      (match s.lc.queue with | [] => [] | f :: _ => f.characters s.cfg.station) else []) ∧
    (s.mismatch place readback = true ↔
      ∃ c, s.sentCharacters[place]? = some c ∧ ∀ more, receiveChars readback ≠ (c, false) :: more) ∧
    (s.mismatch place readback = false → s.isUp = true → exec (.collision place readback) s = .next s))

/-! ### What stays, and what always holds -/

/-- The commands of the set, the changeover, the feeders' timers and the line leave the channels, the inputs, the
fuel, the accounts, the store, the peer entries and the clock as they are; those of the fuel and the accounts leave
the channels, the inputs, the peer entries and the clock. -/
def Obligations.CommandsLeaveTheRest : Prop :=
  ∀ (c : Instr) (s t : State), exec c s = .next t →
    (c.controls = true → t.pcu = s.pcu ∧ t.fli.inputs = s.fli.inputs ∧ t.fu = s.fu ∧ t.bu = s.bu ∧
      t.store = s.store ∧ t.pt.kept = s.pt.kept) ∧
    (c.keepsBooks = true → t.pcu = s.pcu ∧ t.fli.inputs = s.fli.inputs ∧ t.pt.view = s.pt.view)

/-- Every step keeps the field side safe: VALVE closed without FILL KEY or with HIGH LEVEL, S in its range and 0 off
the bus, no FOFF for a PROTECTED feeder, each feeder listed once. -/
def Obligations.StepsKeepTheFieldSafe : Prop :=
  ∀ s t : State, step s = .next t →
    (ValveSafe s → ValveSafe t) ∧ (ShareSafe s → ShareSafe t) ∧ (ProtectedSafe s → ProtectedSafe t) ∧
    (ShedListSound s → ShedListSound t)

/-- Every step keeps the fuel book sound: at most eight lots, none empty, each but the oldest whole, no number
twice, overdraw within its limit and only on an empty queue. The repaying mark is the model's (log 35). -/
def Obligations.StepsKeepTheFuelBookSound : Prop :=
  ∀ s t : State, step s = .next t → FuelSound s → FuelSound t

/-- Every step keeps the view of the group sound: the peer table with its clamped fields, the sides of a handover,
the transmit queue. -/
def Obligations.StepsKeepTheGroupViewSound : Prop :=
  ∀ s t : State, step s = .next t →
    (PeersSound s → PeersSound t) ∧ (SidesSound s → SidesSound t) ∧ (QueueSound s → QueueSound t)

/-- Every step keeps the accounts sound: eight slots, carries below 100,000, at most four statements each, the rate
and the journal within their limits. -/
def Obligations.StepsKeepTheAccountsSound : Prop :=
  ∀ s t : State, step s = .next t → AccountsSound s → AccountsSound t

/-- Every invariant holds before the first power-on. What the part holds then is the model's choice (log 1). -/
def Obligations.ResetIsSound : Prop := Sound State.reset
end

