-- ==== Sys2Proof/Laws/Emissions.lean ====
section
/-! SUPPORT. What each unit can hand over: the control reports and the inner reports, and that working them off makes only such reports. -/

namespace Sys2Proof.Machine

/-! ### The two kinds -/

/-- Reports that move the set, the handover, the feeders and the outputs, and touch no book. -/
def Report.control : Report → Bool
  | .pcu _ | .fu _ | .bu _ | .sr _ => false
  | .fli (.command _ _) | .fli (.auxRow _) | .fli (.pulseEnd _) | .fli (.limit _) => true
  | .fli (.level _ _ _) | .fli .reportKept | .fli (.valve _) => false
  | .pt .reportable | .pt .ownChanged | .pt .heartbeat | .pt .showChanged => true
  | .pt (.stateFrame _ _) | .pt (.age _) | .pt .second | .pt .runSecond | .pt (.timeSet _ _)
  | .pt (.intervalClosed _) => false
  | .du _ | .cc _ => true
  | .sc .second => false
  | .sc _ => true
  | .lc (.frame _ _ _) | .lc (.raw _) => false
  | .lc _ => true

/-- Reports the units make among themselves once an outside event has been taken. -/
def Report.inner : Report → Bool
  | .pcu _ => false
  | .fli (.command _ _) | .fli (.auxRow _) | .fli (.valve _) => true
  | .fli (.level _ _ _) | .fli .reportKept | .fli (.pulseEnd _) | .fli (.limit _) => false
  | .pt .reportable | .pt .ownChanged | .pt .showChanged | .pt (.intervalClosed _) => true
  | .pt (.stateFrame _ _) | .pt (.age _) | .pt .second | .pt .runSecond | .pt (.timeSet _ _) | .pt .heartbeat => false
  | .du _ | .cc _ | .sc _ | .fu _ | .bu _ => true
  | .lc (.offer _) | .lc (.answer _ _ _) => true
  | .lc _ => false
  | .sr (.touch _) => true
  | .sr (.written _) => false

/-- Both at once: what the DU, the CC and most of the FLI, the PT and the SC hand over. -/
def Report.plain (r : Report) : Bool := r.control && r.inner

@[simp] theorem andThen_fst {α : Type} (x : Act α) (g : α → Act α) : (x.andThen g).1 = (g x.1).1 := rfl

@[simp] theorem andThen_snd {α : Type} (x : Act α) (g : α → Act α) : (x.andThen g).2 = x.2 ++ (g x.1).2 := rfl

@[simp] theorem quiet_fst {α : Type} (a : α) : (quiet a).1 = a := rfl

@[simp] theorem quiet_snd {α : Type} (a : α) : (quiet a).2 = [] := rfl

@[simp] theorem plain_du (m : DuMsg) : Report.plain (.du m) = true := rfl
@[simp] theorem plain_cc (m : CcMsg) : Report.plain (.cc m) = true := rfl
@[simp] theorem plain_command (d : Device) (c : Sense) : Report.plain (.fli (.command d c)) = true := rfl
@[simp] theorem plain_auxRow (st : Handover) : Report.plain (.fli (.auxRow st)) = true := rfl
@[simp] theorem plain_reportable : Report.plain (.pt .reportable) = true := rfl
@[simp] theorem plain_ownChanged : Report.plain (.pt .ownChanged) = true := rfl
@[simp] theorem plain_offer (f : TxFrame) : Report.plain (.lc (.offer f)) = true := rfl
@[simp] theorem plain_answer (a : Ask) (r : Result) (d : List Byte) : Report.plain (.lc (.answer a r d)) = true := rfl
@[simp] theorem plain_scFigures (p c : Bool) : Report.plain (.sc (.figures p c)) = true := rfl
@[simp] theorem plain_scHandover (h : Handover) : Report.plain (.sc (.handover h)) = true := rfl
@[simp] theorem plain_scConfirmed (n : FeederId) (c : Sense) : Report.plain (.sc (.confirmed n c)) = true := rfl
@[simp] theorem plain_scFailed (n : FeederId) (c : Sense) : Report.plain (.sc (.failed n c)) = true := rfl
@[simp] theorem plain_scChanged : Report.plain (.sc .changed) = true := rfl
@[simp] theorem plain_scRestore : Report.plain (.sc .restoreTest) = true := rfl

/-! ### The DU -/

@[simp] theorem moveReports_plain (a b : SetState) : (moveReports a b).all Report.plain = true := by
  unfold moveReports; split <;> simp

@[simp] theorem positionReports_plain (a b : Bool) : (positionReports a b).all Report.plain = true := by
  unfold positionReports; split <;> simp

@[simp] theorem duFrame_plain (s : State) (k : Kind) (p : List Byte) : (duFrame s k p).plain = true := rfl

@[simp] theorem enterStopped_plain (d : Du) : (enterStopped d).2.all Report.plain = true := by
  simp only [enterStopped]; split <;> simp

@[simp] theorem enterCooling_plain (d : Du) (a b : Timer) : (enterCooling d a b).2.all Report.plain = true := by
  simp [enterCooling]

@[simp] theorem enterReady_plain (d : Du) : (enterReady d).2.all Report.plain = true := by simp [enterReady]

@[simp] theorem enterWarming_plain (d : Du) : (enterWarming d).2.all Report.plain = true := by simp [enterWarming]

@[simp] theorem enterOnbus_plain (d : Du) : (enterOnbus d).2.all Report.plain = true := by simp [enterOnbus]

@[simp] theorem leaveBus_plain (d : Du) (s : State) : (leaveBus d s).2.all Report.plain = true := by
  simp only [leaveBus]; split <;> simp

@[simp] theorem enterFault_plain (d : Du) (s : State) (c : FaultCause) :
    (enterFault d s c).2.all Report.plain = true := by
  simp only [enterFault]; (repeat' split) <;> simp

@[simp] theorem exitTest_plain (d : Du) (s : State) : (exitTest d s).2.all Report.plain = true := by
  simp only [exitTest]; split <;> simp

@[simp] theorem startRequest_plain (d : Du) (s : State) (o : Origin) :
    (startRequest d s o).2.all Report.plain = true := by
  simp only [startRequest]; (repeat' split) <;> simp

@[simp] theorem takeHeld_plain (d : Du) (s : State) : (takeHeld d s).2.all Report.plain = true := by
  simp only [takeHeld]; (repeat' split) <;> simp

@[simp] theorem stopRequest_plain (d : Du) (s : State) : (stopRequest d s).2.all Report.plain = true := by
  simp only [stopRequest]; (repeat' split) <;> simp

@[simp] theorem ccStopRequest_plain (d : Du) (s : State) : (ccStopRequest d s).2.all Report.plain = true := by
  simp only [ccStopRequest]; split <;> simp

@[simp] theorem stopIfStarted_plain (d : Du) (s : State) (k : Keys) :
    (stopIfStarted d s k).2.all Report.plain = true := by
  simp only [stopIfStarted]; split <;> simp

@[simp] theorem sendClaim_plain (d : Du) (s : State) : (sendClaim d s).2.all Report.plain = true := by
  simp [sendClaim]

@[simp] theorem tryJoin_plain (d : Du) (s : State) : (tryJoin d s).2.all Report.plain = true := by
  simp only [tryJoin]; (repeat' split) <;> simp

@[simp] theorem joinRequest_plain (d : Du) (s : State) : (joinRequest d s).2.all Report.plain = true := by
  simp only [joinRequest]; split <;> simp

@[simp] theorem busLiveChange_plain (d : Du) (s : State) (b : Bool) :
    (busLiveChange d s b).2.all Report.plain = true := by
  simp [busLiveChange]

@[simp] theorem claimHoldEnd_plain (d : Du) (s : State) : (claimHoldEnd d s).2.all Report.plain = true := by
  simp only [claimHoldEnd]; (repeat' split) <;> simp

@[simp] theorem hearClaim_plain (d : Du) (s : State) (n : Nat) (k : Keys) :
    (hearClaim d s n k).2.all Report.plain = true := by
  simp only [hearClaim]; (repeat' split) <;> simp

@[simp] theorem claimWaitEnd_plain (d : Du) (s : State) : (claimWaitEnd d s).2.all Report.plain = true := by
  simp only [claimWaitEnd]; (repeat' split) <;> simp

@[simp] theorem joinTimerEnd_plain (d : Du) (s : State) : (joinTimerEnd d s).2.all Report.plain = true := by
  simp only [joinTimerEnd]; (repeat' split) <;> simp

@[simp] theorem issueTrip_plain (d : Du) (o : EndOutcome) : (issueTrip d o).2.all Report.plain = true := by
  simp [issueTrip]

@[simp] theorem enterRampdown_plain (d : Du) (s : State) : (enterRampdown d s).2.all Report.plain = true := by
  simp only [enterRampdown]; split <;> simp

@[simp] theorem resume_plain (d : Du) : (resume d).2.all Report.plain = true := by
  simp only [resume]; split <;> simp

@[simp] theorem abandonTest_plain (d : Du) (s : State) : (abandonTest d s).2.all Report.plain = true := by
  simp only [abandonTest]; split <;> simp

@[simp] theorem seWindow_plain (d : Du) (s : State) : (seWindow d s).2.all Report.plain = true := by
  simp only [seWindow]; (repeat' split) <;> simp

@[simp] theorem recoveryRequests_plain (d : Du) (s : State) :
    (recoveryRequests d s).2.all Report.plain = true := by
  simp [recoveryRequests]

@[simp] theorem beginRecovery_plain (d : Du) (s : State) : (beginRecovery d s).2.all Report.plain = true := by
  simp only [beginRecovery]; (repeat' split) <;> simp

@[simp] theorem endRecovery_plain (d : Du) (s : State) : (endRecovery d s).2.all Report.plain = true := by
  simp only [endRecovery]; split <;> simp

@[simp] theorem testDeadBus_plain (d : Du) (s : State) : (testDeadBus d s).2.all Report.plain = true := by
  simp only [testDeadBus]; (repeat' split) <;> simp

@[simp] theorem duTest_plain (d : Du) (s : State) : (duTest d s).2.all Report.plain = true := by simp [duTest]

@[simp] theorem deadBusEnd_plain (d : Du) (s : State) : (deadBusEnd d s).2.all Report.plain = true := by
  simp only [deadBusEnd]; split <;> simp

@[simp] theorem escalationEnd_plain (d : Du) (s : State) : (escalationEnd d s).2.all Report.plain = true := by
  simp only [escalationEnd]; split <;> simp

@[simp] theorem startDwellEnd_plain (d : Du) (s : State) : (startDwellEnd d s).2.all Report.plain = true := by
  simp only [startDwellEnd]; (repeat' split) <;> simp

@[simp] theorem hearStartIntent_plain (d : Du) (s : State) (n : Nat) (k : Keys) :
    (hearStartIntent d s n k).2.all Report.plain = true := by
  simp only [hearStartIntent]; (repeat' split) <;> simp

@[simp] theorem stopDwellEnd_plain (d : Du) (s : State) : (stopDwellEnd d s).2.all Report.plain = true := by
  simp only [stopDwellEnd]; (repeat' split) <;> simp

@[simp] theorem hearStopIntent_plain (d : Du) (s : State) (n h : Nat) :
    (hearStopIntent d s n h).2.all Report.plain = true := by
  simp only [hearStopIntent]; (repeat' split) <;> simp

@[simp] theorem intentHoldEnd_plain (d : Du) (s : State) : (intentHoldEnd d s).2.all Report.plain = true := by
  simp only [intentHoldEnd]; (repeat' split) <;> simp

@[simp] theorem runningChange_plain (d : Du) (s : State) (b : Bool) :
    (runningChange d s b).2.all Report.plain = true := by
  simp only [runningChange]; (repeat' split) <;> simp

@[simp] theorem readyChange_plain (d : Du) (b : Bool) : (readyChange d b).2.all Report.plain = true := by
  simp only [readyChange]; (repeat' split) <;> simp

@[simp] theorem faultChange_plain (d : Du) (s : State) (b : Bool) :
    (faultChange d s b).2.all Report.plain = true := by
  simp only [faultChange]; split <;> simp

@[simp] theorem breakerClosed_plain (d : Du) (s : State) (b : Bool) :
    (breakerClosed d s b).2.all Report.plain = true := by
  simp only [breakerClosed]; (repeat' split) <;> simp

@[simp] theorem breakerOpened_plain (d : Du) (s : State) : (breakerOpened d s).2.all Report.plain = true := by
  simp only [breakerOpened]; (repeat' split) <;> simp

@[simp] theorem breakerFailed_plain (d : Du) (s : State) (c : Sense) :
    (breakerFailed d s c).2.all Report.plain = true := by
  cases c <;> simp only [breakerFailed] <;> split <;> simp

@[simp] theorem startTimerEnd_plain (d : Du) (s : State) : (startTimerEnd d s).2.all Report.plain = true := by
  simp only [startTimerEnd]; split <;> simp

@[simp] theorem cooldownEnd_plain (d : Du) : (cooldownEnd d).2.all Report.plain = true := by
  simp only [cooldownEnd]; split <;> simp

@[simp] theorem stopRepeatEnd_plain (d : Du) (s : State) : (stopRepeatEnd d s).2.all Report.plain = true := by
  simp only [stopRepeatEnd]; split <;> simp

@[simp] theorem rampTimerEnd_plain (d : Du) : (rampTimerEnd d).2.all Report.plain = true := by
  simp only [rampTimerEnd]; split <;> simp

/-- The DU hands over plain reports only. -/
theorem duHandle_plain (m : DuMsg) (s : State) : (duHandle m s).2.all Report.plain = true := by
  cases m <;> simp only [duHandle] <;> (repeat' split) <;> simp

/-! ### The CC -/

@[simp] theorem ccEnter_plain (c : Cc) (st : Handover) : (ccEnter c st).2.all Report.plain = true := by
  simp [ccEnter]

@[simp] theorem ccIdle_plain (c : Cc) : (ccIdle c).2.all Report.plain = true := by simp [ccIdle]

@[simp] theorem refFrame_plain (s : State) (k : Kind) (d a n : Nat) (p : List Byte) :
    (refFrame s k d a n p).plain = true := rfl

@[simp] theorem abortFrame_plain (s : State) (d a n : Nat) (w : AbortReason) :
    (abortFrame s d a n w).plain = true := rfl

@[simp] theorem stepFrame_plain (s : State) (d a n : Nat) (k : StepKind) : (stepFrame s d a n k).plain = true := rfl

@[simp] theorem endFrame_plain (s : State) (d a n : Nat) (o : EndOutcome) : (endFrame s d a n o).plain = true := rfl

@[simp] theorem sendCall_plain (c : Cc) (s : State) (r : CallRec) : (sendCall c s r).2.all Report.plain = true := by
  simp [sendCall]

@[simp] theorem callNow_plain (c : Cc) (s : State) (r : CallRec) : (callNow c s r).2.all Report.plain = true := by
  simp [callNow]

@[simp] theorem openCall_plain (c : Cc) (s : State) (k : Cause) : (openCall c s k).2.all Report.plain = true := by
  simp only [openCall]; split <;> simp

@[simp] theorem serve_plain (c : Cc) (s : State) : (serve c s).2.all Report.plain = true := by
  simp only [serve]; (repeat' split) <;> simp

@[simp] theorem absorbPending_plain (c : Cc) (s : State) : (absorbPending c s).2.all Report.plain = true := by
  simp only [absorbPending]; (repeat' split) <;> simp

@[simp] theorem dropCall_plain (c : Cc) (s : State) (r : CallRec) (w : AbortReason) :
    (dropCall c s r w).2.all Report.plain = true := by
  simp only [dropCall]; (repeat' split) <;> simp

@[simp] theorem thresholdChange_plain (c : Cc) (s : State) (a b : Threshold) :
    (thresholdChange c s a b).2.all Report.plain = true := by
  simp only [thresholdChange]; (repeat' split) <;> simp

@[simp] theorem failedAttempt_plain (c : Cc) (s : State) (r : CallRec) :
    (failedAttempt c s r).2.all Report.plain = true := by
  simp only [failedAttempt]; (repeat' split) <;> simp

@[simp] theorem hearCall_plain (c : Cc) (s : State) (a n k : Nat) : (hearCall c s a n k).2.all Report.plain = true := by
  simp only [hearCall]; split <;> simp

@[simp] theorem hearOffer_plain (c : Cc) (s : State) (a n : Nat) (o : Offer) :
    (hearOffer c s a n o).2.all Report.plain = true := by
  simp only [hearOffer]; (repeat' split) <;> simp

@[simp] theorem offerWindowEnd_plain (c : Cc) (s : State) : (offerWindowEnd c s).2.all Report.plain = true := by
  simp only [offerWindowEnd]; (repeat' split) <;> simp

@[simp] theorem retryWaitEnd_plain (c : Cc) (s : State) : (retryWaitEnd c s).2.all Report.plain = true := by
  simp only [retryWaitEnd]; (repeat' split) <;> simp

@[simp] theorem hearPick_plain (c : Cc) (s : State) (x a n i : Nat) (m : Mode) :
    (hearPick c s x a n i m).2.all Report.plain = true := by
  simp only [hearPick]; (repeat' split) <;> simp

@[simp] theorem treatSet_plain (s : State) : (treatSet s).all Report.plain = true := by
  simp only [treatSet]; split <;> simp

@[simp] theorem giveUp_plain (c : Cc) (s : State) : (giveUp c s).2.all Report.plain = true := by simp [giveUp]

@[simp] theorem giveUpWith_plain (c : Cc) (s : State) (r : IncRec) (w : AbortReason) :
    (giveUpWith c s r w).2.all Report.plain = true := by simp [giveUpWith]

@[simp] theorem sendReady_plain (c : Cc) (s : State) (r : IncRec) : (sendReady c s r).2.all Report.plain = true := by
  simp only [sendReady]; (repeat' split) <;> simp

@[simp] theorem prepareSet_plain (c : Cc) (s : State) (r : IncRec) :
    (prepareSet c s r).2.all Report.plain = true := by
  simp only [prepareSet]; (repeat' split) <;> simp

@[simp] theorem enterIncomingRelease_plain (c : Cc) : (enterIncomingRelease c).2.all Report.plain = true := by
  simp [enterIncomingRelease]

@[simp] theorem checkDeadbus_plain (c : Cc) (s : State) : (checkDeadbus c s).2.all Report.plain = true := by
  simp only [checkDeadbus]; (repeat' split) <;> simp

@[simp] theorem enterIncomingDeadbus_plain (c : Cc) (r : IncRec) :
    (enterIncomingDeadbus c r).2.all Report.plain = true := by simp [enterIncomingDeadbus]

@[simp] theorem enterOutgoingParallel_plain (c : Cc) : (enterOutgoingParallel c).2.all Report.plain = true := by
  simp [enterOutgoingParallel]

@[simp] theorem enterOutgoingRelease_plain (c : Cc) : (enterOutgoingRelease c).2.all Report.plain = true := by
  simp [enterOutgoingRelease]

@[simp] theorem takeReady_plain (c : Cc) (s : State) (r : CallRec) : (takeReady c s r).2.all Report.plain = true := by
  simp only [takeReady]; (repeat' split) <;> simp

@[simp] theorem takeClosed_plain (c : Cc) (s : State) (r : CallRec) :
    (takeClosed c s r).2.all Report.plain = true := by
  simp only [takeClosed]; (repeat' split) <;> simp

@[simp] theorem parallelLoss_plain (c : Cc) (r : CallRec) : (parallelLoss c r).2.all Report.plain = true := by
  simp only [parallelLoss]; split <;> simp

@[simp] theorem parallelSet_plain (c : Cc) (s : State) (r : CallRec) (a : SetState) :
    (parallelSet c s r a).2.all Report.plain = true := by
  simp only [parallelSet]; split <;> simp

@[simp] theorem outgoingSet_plain (c : Cc) (s : State) (r : CallRec) (a b : SetState) :
    (outgoingSet c s r a b).2.all Report.plain = true := by
  simp only [outgoingSet]; (repeat' split) <;> simp

@[simp] theorem incomingSet_plain (c : Cc) (s : State) (r : IncRec) (a : SetState) :
    (incomingSet c s r a).2.all Report.plain = true := by
  simp only [incomingSet]; (repeat' split) <;> simp

@[simp] theorem setChanged_plain (c : Cc) (s : State) (a b : SetState) :
    (setChanged c s a b).2.all Report.plain = true := by
  simp only [setChanged]; split <;> simp

@[simp] theorem showChange_plain (c : Cc) (s : State) (b : Bool) : (showChange c s b).2.all Report.plain = true := by
  simp only [showChange]; (repeat' split) <;> simp

@[simp] theorem partnerGone_plain (c : Cc) (s : State) : (partnerGone c s).2.all Report.plain = true := by
  simp only [partnerGone]; (repeat' split) <;> simp

@[simp] theorem takeShown_plain (c : Cc) (s : State) (f : PeerFields) :
    (takeShown c s f).2.all Report.plain = true := by
  simp only [takeShown]; (repeat' split) <;> simp

@[simp] theorem hearPartner_plain (c : Cc) (s : State) (n : Nat) : (hearPartner c s n).2.all Report.plain = true := by
  simp only [hearPartner]; (repeat' split) <;> simp

@[simp] theorem ccPeerLost_plain (c : Cc) (s : State) (n : Nat) : (ccPeerLost c s n).2.all Report.plain = true := by
  simp only [ccPeerLost]; (repeat' split) <;> simp

@[simp] theorem takeStep_plain (c : Cc) (s : State) (k : Option StepKind) :
    (takeStep c s k).2.all Report.plain = true := by
  simp only [takeStep]; (repeat' split) <;> simp

@[simp] theorem takeEnd_plain (c : Cc) : (takeEnd c).2.all Report.plain = true := by
  simp only [takeEnd]; split <;> simp

@[simp] theorem takeAbort_plain (c : Cc) (s : State) (w : Byte) : (takeAbort c s w).2.all Report.plain = true := by
  simp [takeAbort]

@[simp] theorem ccTripFail_plain (c : Cc) (s : State) : (ccTripFail c s).2.all Report.plain = true := by
  simp only [ccTripFail]; (repeat' split) <;> simp

@[simp] theorem takeHold_plain (c : Cc) (s : State) : (takeHold c s).2.all Report.plain = true := by
  simp only [takeHold]; (repeat' split) <;> simp

@[simp] theorem ccStartFail_plain (c : Cc) (s : State) : (ccStartFail c s).2.all Report.plain = true := by
  simp only [ccStartFail]; (repeat' split) <;> simp

@[simp] theorem ccJoinFail_plain (c : Cc) (s : State) : (ccJoinFail c s).2.all Report.plain = true := by
  simp only [ccJoinFail]; (repeat' split) <;> simp

@[simp] theorem ccRampRefused_plain (c : Cc) (s : State) : (ccRampRefused c s).2.all Report.plain = true := by
  simp only [ccRampRefused]; (repeat' split) <;> simp

@[simp] theorem ccRampAbandoned_plain (c : Cc) (s : State) : (ccRampAbandoned c s).2.all Report.plain = true := by
  simp only [ccRampAbandoned]; (repeat' split) <;> simp

@[simp] theorem ccTripIssued_plain (c : Cc) (s : State) (o : EndOutcome) :
    (ccTripIssued c s o).2.all Report.plain = true := by
  simp only [ccTripIssued]; (repeat' split) <;> simp

@[simp] theorem checkSet_plain (c : Cc) (s : State) : (checkSet c s).2.all Report.plain = true := by
  simp only [checkSet]; (repeat' split) <;> simp

@[simp] theorem checkRelease_plain (c : Cc) (s : State) : (checkRelease c s).2.all Report.plain = true := by
  simp only [checkRelease]; (repeat' split) <;> simp

@[simp] theorem checkReady_plain (c : Cc) (s : State) : (checkReady c s).2.all Report.plain = true := by
  simp only [checkReady]; (repeat' split) <;> simp

@[simp] theorem prepLimitEnd_plain (c : Cc) (s : State) : (prepLimitEnd c s).2.all Report.plain = true := by
  simp only [prepLimitEnd]; (repeat' split) <;> simp

@[simp] theorem prepTimeoutEnd_plain (c : Cc) (s : State) : (prepTimeoutEnd c s).2.all Report.plain = true := by
  simp only [prepTimeoutEnd]; (repeat' split) <;> simp

@[simp] theorem gapLimitEnd_plain (c : Cc) (s : State) : (gapLimitEnd c s).2.all Report.plain = true := by
  simp only [gapLimitEnd]; (repeat' split) <;> simp

@[simp] theorem ccHandoverRequest_plain (c : Cc) (s : State) (a : Ask) :
    (ccHandoverRequest c s a).2.all Report.plain = true := by
  simp only [ccHandoverRequest]; split <;> simp

@[simp] theorem ccHandoverAbort_plain (c : Cc) (s : State) (a : Ask) :
    (ccHandoverAbort c s a).2.all Report.plain = true := by
  simp only [ccHandoverAbort]; (repeat' split) <;> simp

/-- The CC hands over plain reports only. -/
theorem ccHandle_plain (m : CcMsg) (s : State) : (ccHandle m s).2.all Report.plain = true := by
  cases m <;> simp only [ccHandle] <;> (repeat' split) <;> simp

/-! ### The SC -/

@[simp] theorem scDone_plain (a b : Sc) : (scDone a b).2.all Report.plain = true := by
  simp only [scDone]; split <;> simp

@[simp] theorem shedAttempt_plain (c : Sc) (s : State) : (shedAttempt c s).2.all Report.plain = true := by
  simp only [shedAttempt, shedOne]; (repeat' split) <;> simp

@[simp] theorem deadBusShed_plain (c : Sc) (s : State) : (deadBusShed c s).2.all Report.plain = true := by
  simp [deadBusShed]

@[simp] theorem restoreTest_plain (c : Sc) (s : State) : (restoreTest c s).2.all Report.plain = true := by
  simp only [restoreTest]; (repeat' split) <;> simp

@[simp] theorem scConfirmed_plain (c : Sc) (n : FeederId) (k : Sense) :
    (scConfirmed c n k).2.all Report.plain = true := scDone_plain _ _

@[simp] theorem scFailed_plain (c : Sc) (n : FeederId) (k : Sense) :
    (scFailed c n k).2.all Report.plain = true := scDone_plain _ _

@[simp] theorem scUncommanded_plain (c : Sc) (n : FeederId) (b : Bool) :
    (scUncommanded c n b).2.all Report.plain = true := scDone_plain _ _

@[simp] theorem confirmWindowEnd_plain (c : Sc) (s : State) :
    (confirmWindowEnd c s).2.all Report.plain = true := by
  simp only [confirmWindowEnd]; (repeat' split) <;> simp

@[simp] theorem settleEnd_plain (c : Sc) : (settleEnd c).2.all Report.plain = true := by
  simp only [settleEnd]; split <;> simp

@[simp] theorem spacingEnd_plain (c : Sc) : (spacingEnd c).2.all Report.plain = true := by
  simp only [spacingEnd]; split <;> simp

@[simp] theorem scChanged_plain (c : Sc) (s : State) : (scChanged c s).2.all Report.plain = true := by
  simp only [scChanged]; (repeat' split) <;> simp

@[simp] theorem scBusLive_plain (c : Sc) (s : State) (b : Bool) : (scBusLive c s b).2.all Report.plain = true := by
  simp only [scBusLive]; split <;> simp

@[simp] theorem scFigures_plain (c : Sc) (s : State) (a b : Bool) :
    (scFigures c s a b).2.all Report.plain = true := by
  simp only [scFigures]; (repeat' split) <;> simp

@[simp] theorem scEndOfStart_plain (c : Sc) (s : State) : (scEndOfStart c s).2.all Report.plain = true := by
  simp only [scEndOfStart]; split <;> simp

/-- The SC hands over plain reports, its second mark apart. -/
theorem scHandle_plain (m : ScMsg) (s : State) (h : m ≠ .second) : (scHandle m s).2.all Report.plain = true := by
  unfold scHandle
  cases m <;> simp only [ne_eq, not_true_eq_false, reduceCtorEq, if_false] at h ⊢ <;>
    (repeat' split) <;> simp_all

/-- The SC hands over inner reports only. -/
theorem scHandle_inner (m : ScMsg) (s : State) : (scHandle m s).2.all Report.inner = true := by
  by_cases h : m = .second
  · subst h
    simp only [scHandle]
    split
    · simp
    · simp [scSecond, List.all_map, List.all_filter, Report.inner]
  · have := scHandle_plain m s h
    simp only [Report.plain, List.all_eq_true, Bool.and_eq_true] at this ⊢
    exact fun r hr => (this r hr).2

/-! ### From plain to either kind -/

theorem all_control_of_plain {l : List Report} (h : l.all Report.plain = true) : l.all Report.control = true := by
  simp only [Report.plain, List.all_eq_true, Bool.and_eq_true] at h ⊢
  exact fun r hr => (h r hr).1

theorem all_inner_of_plain {l : List Report} (h : l.all Report.plain = true) : l.all Report.inner = true := by
  simp only [Report.plain, List.all_eq_true, Bool.and_eq_true] at h ⊢
  exact fun r hr => (h r hr).2

/-! ### The FLI -/

@[simp] theorem confirmedReport_plain (d : Device) (c : Sense) : (confirmedReport d c).all Report.plain = true := by
  cases d <;> rfl

@[simp] theorem failedReport_plain (d : Device) (c : Sense) : (failedReport d c).all Report.plain = true := by
  cases d <;> rfl

@[simp] theorem fliIssue_plain (x : Fli) (d : Device) (c : Sense) : (fliIssue x d c).2.all Report.plain = true := by
  simp only [fliIssue]; (repeat' split) <;> simp

/-- A command, an aux row, the end of a pulse and a confirm limit hand over plain reports only. -/
theorem fliHandle_plain (m : FliMsg) (s : State) (h : ∀ i b n, m ≠ .level i b n) (hk : m ≠ .reportKept) :
    (fliHandle m s).2.all Report.plain = true := by
  cases m with
  | level i b n => exact absurd rfl (h i b n)
  | command d c => simp only [fliHandle, fliCommand]; (repeat' split) <;> simp
  | pulseEnd d => simp only [fliHandle, fliPulseEnd]; (repeat' split) <;> simp
  | limit d => simp only [fliHandle, fliLimit]; (repeat' split) <;> simp
  | valve b => simp [fliHandle]
  | auxRow st => simp only [fliHandle]; split <;> simp
  | reportKept => exact absurd rfl hk

/-! ### The PT -/

@[simp] theorem sendState_plain (p : Pt) (s : State) : (sendState p s).2.all Report.plain = true := by
  simp [sendState]

@[simp] theorem figureChanges_plain (a b : Figures) : (figureChanges a b).all Report.plain = true := by
  simp only [figureChanges]; (repeat' split) <;> simp

@[simp] theorem recompute_plain (p : Pt) (s : State) : (recompute p s).2.all Report.plain = true := by
  simp [recompute]

/-! ### The FU -/

theorem inner_append {l r : List Report} (hl : l.all Report.inner = true) (hr : r.all Report.inner = true) :
    (l ++ r).all Report.inner = true := by simp [hl, hr]

@[simp] theorem lotChange_inner (l : Lot) (rest : List Lot) : (lotChange l rest).inner = true := rfl

@[simp] theorem thresholdReports_inner (a b : Threshold) : (thresholdReports a b).all Report.inner = true := by
  simp only [thresholdReports]; split <;> simp [Report.inner]

@[simp] theorem computeHours_inner (f : Fu) (s : State) : (computeHours f s).2.all Report.inner = true := by
  simp [computeHours]

@[simp] theorem burnOne_inner (f : Fu) : (burnOne f).2.all Report.inner = true := by
  simp only [burnOne]; (repeat' split) <;> simp <;> simp [Report.inner]

@[simp] theorem enterPaused_inner (f : Fu) (v : Visit) (c : PauseCause) :
    (enterPaused f v c).2.all Report.inner = true := rfl

@[simp] theorem enterFlowing_inner (f : Fu) (v : Visit) : (enterFlowing f v).2.all Report.inner = true := rfl

@[simp] theorem causeCleared_inner (f : Fu) (s : State) (v : Visit) :
    (causeCleared f s v).2.all Report.inner = true := by
  simp only [causeCleared]; split <;> simp

@[simp] theorem bookTest_inner (f : Fu) (s : State) : (bookTest f s).2.all Report.inner = true := by
  simp only [bookTest]; (repeat' split) <;> simp

@[simp] theorem fuBurn_inner (f : Fu) (s : State) (n : Nat) : (fuBurn f s n).2.all Report.inner = true := by
  cases n <;> simp [fuBurn]
  exact fun _ => rfl

@[simp] theorem fuFill_inner (f : Fu) (s : State) (n : Nat) : (fuFill f s n).2.all Report.inner = true := by
  cases n <;> simp only [fuFill] <;> (repeat' split) <;> simp [Report.inner]

@[simp] theorem shrinkLots_inner (held : Nat) (l : List Lot) (q : Nat) :
    (shrinkLots held l q).reports.all Report.inner = true := by
  induction l generalizing held q with
  | nil => rfl
  | cons a l ih => simp only [shrinkLots]; (repeat' split) <;> simp [ih]

@[simp] theorem reconcile_inner (f : Fu) (s : State) (o : ReconOrigin) (p : Nat) :
    (reconcile f s o p).2.all Report.inner = true := by
  simp only [reconcile, shrink, gain]; (repeat' split) <;> simp [Report.inner]

@[simp] theorem endVisit_inner (f : Fu) (v : Visit) (c : EndCause) : (endVisit f v c).2.all Report.inner = true := rfl

@[simp] theorem clearDelivery_inner (f : Fu) (d : Delivery) (c : EndCause) :
    (clearDelivery f d c).2.all Report.inner = true := by
  simp only [clearDelivery]; (repeat' split) <;> simp

@[simp] theorem judgeClaim_inner (f : Fu) (s : State) (d : Delivery) : (judgeClaim f s d).2.all Report.inner = true := by
  simp only [judgeClaim]; split <;> simp [Report.inner]

@[simp] theorem acceptVisit_inner (f : Fu) (s : State) (a n : Nat) (d : Delivery) :
    (acceptVisit f s a n d).2.all Report.inner = true := by
  simp only [acceptVisit]; split <;> simp

/-- The FU hands over inner reports only. -/
theorem fuHandle_inner (m : FuMsg) (s : State) : (fuHandle m s).2.all Report.inner = true := by
  cases m <;>
    simp only [fuHandle, levelWindow, keyChange, highChange, deliveryOpen, deliveryClose, visitFrame, visitEndFrame,
      recordExpiry, claimRepeatEnd, flowStallEnd, pauseTimerEnd, reconTimerEnd, fuReconcile, fuTankQuery,
      replyFrame] <;>
    (repeat' split) <;> simp [Report.inner]

/-! ### The BU -/

@[simp] theorem withInterval_inner (b : Bu) (i : Interval) : (withInterval b i).2.all Report.inner = true := by
  simp only [withInterval]; split <;> simp [Report.inner]

@[simp] theorem bookUnit_inner (b : Bu) (i : Interval) (k : Nat) (next : Nat → BuMsg) :
    (bookUnit b i k next).2.all Report.inner = true := by
  simp only [bookUnit]; split <;> simp [Report.inner]

@[simp] theorem bookSet_inner (b : Bu) (k : Nat) : (bookSet b k).2.all Report.inner = true := by
  cases k <;> simp [bookSet]

@[simp] theorem bookFeeder_inner (b : Bu) (n : FeederId) (k : Nat) : (bookFeeder b n k).2.all Report.inner = true := by
  cases k <;> simp [bookFeeder]

@[simp] theorem postFeeder_inner (k : CloseTerms) (b : Bu) (n : FeederId) (a : FeederAcc) :
    (postFeeder k b n a).2.all Report.inner = true := by
  simp only [postFeeder]; split <;> simp [Report.inner]

@[simp] theorem postAll_inner (k : CloseTerms) (b : Bu) (accs : Quad (Option FeederAcc)) :
    (postAll k b accs).2.all Report.inner = true := by
  have step : ∀ (x : Act Bu) (n : FeederId), x.2.all Report.inner = true →
      (x.andThen fun c => match accs.get n with
        | some a => if a.tenant = 0 then quiet c else postFeeder k c n a
        | none => quiet c).2.all Report.inner = true := by
    intro x n hx
    simp only [andThen_snd, List.all_append, hx, Bool.true_and]
    (repeat' split) <;> simp
  simp only [postAll, FeederId.every, List.foldl]
  exact step _ _ (step _ _ (step _ _ (step _ _ rfl)))

@[simp] theorem closeInterval_inner (b : Bu) (s : State) (v : Nat) : (closeInterval b s v).2.all Report.inner = true := by
  simp only [closeInterval]
  (repeat' split) <;> simp [Report.inner]

@[simp] theorem clockChange_inner (b : Bu) (s : State) (c : ClockChange) :
    (clockChange b s c).2.all Report.inner = true := by
  simp only [clockChange]; (repeat' split) <;> simp

@[simp] theorem statementClose_inner (b : Bu) (s : State) (a : Ask) (c : Nat) :
    (statementClose b s a c).2.all Report.inner = true := by
  simp only [statementClose]; (repeat' split) <;> simp [Report.inner]

@[simp] theorem codeQuery_inner (b : Bu) (a : Ask) (c : Nat) (g : Slot → List Byte) :
    (codeQuery b a c g).all Report.inner = true := by
  simp only [codeQuery]; (repeat' split) <;> simp [Report.inner]

/-- The BU hands over inner reports only. -/
theorem buHandle_inner (m : BuMsg) (s : State) : (buHandle m s).2.all Report.inner = true := by
  cases m <;> simp only [buHandle] <;> simp [Report.inner]

/-! ### Both kinds are closed under delivery -/

/-- Control reports lead to control reports only. -/
theorem control_closed (r : Report) (s : State) (h : r.control = true) :
    (deliver r s).2.all Report.control = true := by
  cases r with
  | pcu m => simp [Report.control] at h
  | fli m =>
      refine all_control_of_plain (fliHandle_plain m s ?_ ?_)
      · rintro i b n rfl
        simp [Report.control] at h
      · rintro rfl
        simp [Report.control] at h
  | pt m =>
      refine all_control_of_plain ?_
      cases m <;> simp only [Report.control, Bool.false_eq_true] at h <;> simp only [deliver, ptHandle] <;>
        (repeat' split) <;> simp
  | du m => exact all_control_of_plain (duHandle_plain m s)
  | cc m => exact all_control_of_plain (ccHandle_plain m s)
  | sc m =>
      refine all_control_of_plain (scHandle_plain m s ?_)
      rintro rfl
      simp [Report.control] at h
  | fu m => simp [Report.control] at h
  | bu m => simp [Report.control] at h
  | lc m => cases m <;> simp only [Report.control, Bool.false_eq_true] at h <;> rfl
  | sr m => simp [Report.control] at h

/-- Inner reports lead to inner reports only. -/
theorem inner_closed (r : Report) (s : State) (h : r.inner = true) : (deliver r s).2.all Report.inner = true := by
  cases r with
  | pcu m => simp [Report.inner] at h
  | fli m =>
      refine all_inner_of_plain (fliHandle_plain m s ?_ ?_)
      · rintro i b n rfl
        simp [Report.inner] at h
      · rintro rfl
        simp [Report.inner] at h
  | pt m =>
      cases m <;> simp only [Report.inner, Bool.false_eq_true] at h <;> simp only [deliver, ptHandle] <;>
        first
          | rfl
          | (refine all_inner_of_plain ?_; (repeat' split) <;> simp)
  | du m => exact all_inner_of_plain (duHandle_plain m s)
  | cc m => exact all_inner_of_plain (ccHandle_plain m s)
  | sc m => exact scHandle_inner m s
  | fu m => exact fuHandle_inner m s
  | bu m => exact buHandle_inner m s
  | lc m => cases m <;> simp only [Report.inner, Bool.false_eq_true] at h <;> rfl
  | sr m =>
      cases m <;> simp only [Report.inner, Bool.false_eq_true] at h
      rfl

end Sys2Proof.Machine
end

