-- ==== Sys2Proof/Laws/State.lean ====
section
/-! SUPPORT. One lemma per field of each named update of the state: a report taken, an input set, a channel, device or feeder record replaced, a state made fresh. -/

namespace Sys2Proof.Machine

/-! ### A report taken: what no unit changes -/

@[simp] theorem deliver_pending (r : Report) (s : State) : (deliver r s).1.pending = s.pending := by cases r <;> rfl

@[simp] theorem deliver_phase (r : Report) (s : State) : (deliver r s).1.phase = s.phase := by cases r <;> rfl

@[simp] theorem deliver_cfg (r : Report) (s : State) : (deliver r s).1.cfg = s.cfg := by cases r <;> rfl

@[simp] theorem deliver_configClamped (r : Report) (s : State) :
    (deliver r s).1.configClamped = s.configClamped := by cases r <;> rfl

@[simp] theorem deliver_retainedDamaged (r : Report) (s : State) :
    (deliver r s).1.retainedDamaged = s.retainedDamaged := by cases r <;> rfl

/-! ### A report taken: the unit it names -/

@[simp] theorem deliver_pcu (m : PcuMsg) (s : State) :
    deliver (.pcu m) s = ({ s with pcu := (pcuHandle m s).1 }, (pcuHandle m s).2) := rfl

@[simp] theorem deliver_fli (m : FliMsg) (s : State) :
    deliver (.fli m) s = ({ s with fli := (fliHandle m s).1 }, (fliHandle m s).2) := rfl

@[simp] theorem deliver_pt (m : PtMsg) (s : State) :
    deliver (.pt m) s = ({ s with pt := (ptHandle m s).1 }, (ptHandle m s).2) := rfl

@[simp] theorem deliver_du (m : DuMsg) (s : State) :
    deliver (.du m) s = ({ s with du := (duHandle m s).1 }, (duHandle m s).2) := rfl

@[simp] theorem deliver_cc (m : CcMsg) (s : State) :
    deliver (.cc m) s = ({ s with cc := (ccHandle m s).1 }, (ccHandle m s).2) := rfl

@[simp] theorem deliver_sc (m : ScMsg) (s : State) :
    deliver (.sc m) s = ({ s with sc := (scHandle m s).1 }, (scHandle m s).2) := rfl

@[simp] theorem deliver_fu (m : FuMsg) (s : State) :
    deliver (.fu m) s = ({ s with fu := (fuHandle m s).1 }, (fuHandle m s).2) := rfl

@[simp] theorem deliver_bu (m : BuMsg) (s : State) :
    deliver (.bu m) s = ({ s with bu := (buHandle m s).1 }, (buHandle m s).2) := rfl

@[simp] theorem deliver_lc (m : LcMsg) (s : State) :
    deliver (.lc m) s = ({ s with lc := (lcHandle m s).1 }, (lcHandle m s).2) := rfl

@[simp] theorem deliver_sr (m : SrMsg) (s : State) :
    deliver (.sr m) s = ({ s with store := (srHandle m s).1 }, (srHandle m s).2) := rfl

/-! ### The PCU's channels -/

@[simp] theorem Pcu.get_put_same (p : Pcu) (c : Channel) (x : Chan) : (p.put c x).get c = x := by
  cases c <;> simp [Pcu.put, Pcu.get]

@[simp] theorem Pcu.get_put_other (p : Pcu) {c d : Channel} (x : Chan) (h : d ≠ c) :
    (p.put c x).get d = p.get d := by
  cases c <;> cases d <;> first
    | rfl
    | exact absurd rfl h
    | (simp only [ne_eq, Channel.f.injEq] at h; simp [Pcu.put, Pcu.get, h])

@[simp] theorem Pcu.level_put (p : Pcu) (c : Channel) (x : Chan) : (p.put c x).level = p.level := by cases c <;> rfl

/-! ### The FLI's devices and inputs -/

@[simp] theorem Fli.dev_putDev_same (x : Fli) (d : Device) (v : Dev) : (x.putDev d v).dev d = v := by
  cases d <;> simp [Fli.putDev, Fli.dev]

@[simp] theorem Fli.dev_putDev_other (x : Fli) {d e : Device} (v : Dev) (h : e ≠ d) :
    (x.putDev d v).dev e = x.dev e := by
  cases d <;> cases e <;> first
    | rfl
    | exact absurd rfl h
    | (simp only [ne_eq, Device.feeder.injEq] at h; simp [Fli.putDev, Fli.dev, h])

@[simp] theorem Fli.inputs_putDev (x : Fli) (d : Device) (v : Dev) : (x.putDev d v).inputs = x.inputs := by
  cases d <;> rfl

@[simp] theorem Fli.valve_putDev (x : Fli) (d : Device) (v : Dev) : (x.putDev d v).valve = x.valve := by
  cases d <;> rfl

@[simp] theorem Fli.aux_putDev (x : Fli) (d : Device) (v : Dev) : (x.putDev d v).aux = x.aux := by cases d <;> rfl

@[simp] theorem Fli.breakerFail_putDev (x : Fli) (d : Device) (v : Dev) :
    (x.putDev d v).breakerFail = x.breakerFail := by cases d <;> rfl

@[simp] theorem Fli.kept_putDev (x : Fli) (d : Device) (v : Dev) : (x.putDev d v).kept = x.kept := by cases d <;> rfl

@[simp] theorem inputLevel_setInput_same (l : Levels) (i : Input) (b : Bool) :
    inputLevel (setInput l i b) i = b := by cases i <;> simp [setInput, inputLevel]

@[simp] theorem inputLevel_setInput_other (l : Levels) {i j : Input} (b : Bool) (h : j ≠ i) :
    inputLevel (setInput l i b) j = inputLevel l j := by
  cases i <;> cases j <;> first
    | rfl
    | exact absurd rfl h
    | (simp only [ne_eq, Input.ffb.injEq] at h; simp [setInput, inputLevel, h])

/-! ### The SC's records -/

@[simp] theorem Sc.recs_putRec (c : Sc) (n : FeederId) (r : Feeder) : (c.putRec n r).recs = c.recs.put n r := rfl

@[simp] theorem Sc.shedList_putRec (c : Sc) (n : FeederId) (r : Feeder) :
    (c.putRec n r).shedList = c.shedList := rfl

@[simp] theorem Sc.settle_putRec (c : Sc) (n : FeederId) (r : Feeder) : (c.putRec n r).settle = c.settle := rfl

@[simp] theorem Sc.window_putRec (c : Sc) (n : FeederId) (r : Feeder) : (c.putRec n r).window = c.window := rfl

@[simp] theorem Sc.spacing_putRec (c : Sc) (n : FeederId) (r : Feeder) : (c.putRec n r).spacing = c.spacing := rfl

@[simp] theorem Sc.waiting_putRec (c : Sc) (n : FeederId) (r : Feeder) : (c.putRec n r).waiting = c.waiting := rfl

@[simp] theorem Sc.overload_putRec (c : Sc) (n : FeederId) (r : Feeder) : (c.putRec n r).overload = c.overload := rfl

@[simp] theorem Sc.shedList_rotate (c : Sc) (n : FeederId) : (c.rotate n).shedList = c.shedList := rfl

@[simp] theorem Sc.recs_rotate (c : Sc) (n : FeederId) : (c.rotate n).recs = c.recs := rfl

/-! ### A state made fresh -/

@[simp] theorem fresh_pending (s : State) (p : Phase) : (s.fresh p).pending = s.pending := rfl

@[simp] theorem fresh_phase (s : State) (p : Phase) : (s.fresh p).phase = p := rfl

@[simp] theorem fresh_store (s : State) (p : Phase) : (s.fresh p).store = s.store := rfl

@[simp] theorem fresh_cfg (s : State) (p : Phase) : (s.fresh p).cfg = s.cfg := rfl

@[simp] theorem fresh_pcu (s : State) (p : Phase) : (s.fresh p).pcu = .start := rfl

@[simp] theorem fresh_fli (s : State) (p : Phase) : (s.fresh p).fli = .start := rfl

@[simp] theorem fresh_pt (s : State) (p : Phase) : (s.fresh p).pt = .start := rfl

@[simp] theorem fresh_du (s : State) (p : Phase) : (s.fresh p).du = .start := rfl

@[simp] theorem fresh_cc (s : State) (p : Phase) : (s.fresh p).cc = .start := rfl

@[simp] theorem fresh_sc (s : State) (p : Phase) : (s.fresh p).sc = .start := rfl

@[simp] theorem fresh_fu (s : State) (p : Phase) : (s.fresh p).fu = .start := rfl

@[simp] theorem fresh_bu (s : State) (p : Phase) : (s.fresh p).bu = .start := rfl

@[simp] theorem fresh_configClamped (s : State) (p : Phase) : (s.fresh p).configClamped = false := rfl

@[simp] theorem fresh_retainedDamaged (s : State) (p : Phase) : (s.fresh p).retainedDamaged = false := rfl

end Sys2Proof.Machine
end

