-- ==== Sys2Proof/Laws/Settle.lean ====
section
/-! SUPPORT. The reports worked off: one step of it, what stays through all of it, and what the two kinds of reports leave alone. -/

namespace Sys2Proof.Machine

/-! ### One step -/

@[simp] theorem settle_nil (n : Nat) (s : State) : settle n [] s = s := by cases n <;> rfl

theorem settle_cons (n : Nat) (r : Report) (rest : List Report) (s : State) :
    settle (n + 1) (r :: rest) s = settle n ((deliver r s).2 ++ rest) (deliver r s).1 := rfl

@[simp] theorem take_nil (s : State) : s.take [] = s := settle_nil _ s

/-- The first report of an agenda taken off it. -/
theorem take_cons (r : Report) (rest : List Report) (s : State) :
    s.take (r :: rest) = settle (settleLimit - 1) ((deliver r s).2 ++ rest) (deliver r s).1 := rfl

theorem run_up {s : State} (h : s.isUp = true) (rs : List Report) : s.run rs = s.take rs := by
  simp [State.run, h]

theorem run_down {s : State} (h : s.isUp = false) (rs : List Report) : s.run rs = s := by
  simp [State.run, h]

@[simp] theorem handOn_nil (s : State) (k : Nat) : s.handOn k [] = s := settle_nil _ s

/-- The first of the reports handed on is taken; ten is far below the limit. -/
theorem handOn_cons (s : State) (r : Report) (rest : List Report) {k : Nat} (h : k < 10) :
    s.handOn k (r :: rest) = (deliver r s).1.handOn (k + 1) ((deliver r s).2 ++ rest) := by
  have e : settleLimit - k = (settleLimit - (k + 1)) + 1 := by simp only [settleLimit]; omega
  simp only [State.handOn, e, settle_cons]

/-- A command that makes one report: its unit takes it, and what the unit reports is handed on. -/
theorem run_one {s : State} (h : s.isUp = true) (r : Report) :
    s.run [r] = (deliver r s).1.handOn 1 (deliver r s).2 := by
  rw [run_up h, take_cons, List.append_nil]; rfl

/-- An answer is given, and nothing else happens. -/
theorem handOn_answer (s : State) (a : Ask) (r : Result) (data : List Byte) {k : Nat} (h : k < 10) :
    s.handOn k [.lc (.answer a r data)] = s.answered a r data := by
  rw [handOn_cons _ _ _ h]; simp [deliver, lcHandle, State.answered]

/-- A frame is offered, and nothing else happens. -/
theorem handOn_offer (s : State) (f : TxFrame) {k : Nat} (h : k < 10) :
    s.handOn k [.lc (.offer f)] = s.offered f := by
  rw [handOn_cons _ _ _ h]; simp [deliver, lcHandle, State.offered]

theorem isRunning_isUp {s : State} (h : s.phase = .running) : s.isUp = true := by simp [State.isUp, h]

/-! ### What stays -/

/-- What no report changes stays through a whole working off. -/
theorem settle_keeps {α : Type} (f : State → α) (hf : ∀ r s, f (deliver r s).1 = f s) (n : Nat)
    (rs : List Report) (s : State) : f (settle n rs s) = f s := by
  induction n generalizing rs s with
  | zero => rfl
  | succ n ih =>
      cases rs with
      | nil => rfl
      | cons r rest => rw [settle_cons, ih, hf]

/-- What the reports of a kind leave alone stays, when such reports lead to such reports only. -/
theorem settle_keeps_of {α : Type} (P : Report → Bool) (closed : ∀ r s, P r = true → (deliver r s).2.all P = true)
    (f : State → α) (hf : ∀ r s, P r = true → f (deliver r s).1 = f s) (n : Nat) (rs : List Report) (s : State)
    (h : rs.all P = true) : f (settle n rs s) = f s := by
  induction n generalizing rs s with
  | zero => rfl
  | succ n ih =>
      cases rs with
      | nil => rfl
      | cons r rest =>
          simp only [List.all_cons, Bool.and_eq_true] at h
          rw [settle_cons, ih _ _ (by simp [closed r s h.1, h.2]), hf r s h.1]

/-- A property every report keeps is kept by a whole working off. -/
theorem settle_invariant (Inv : State → Prop) (hI : ∀ r s, Inv s → Inv (deliver r s).1) (n : Nat)
    (rs : List Report) (s : State) (h : Inv s) : Inv (settle n rs s) := by
  induction n generalizing rs s with
  | zero => exact h
  | succ n ih =>
      cases rs with
      | nil => exact h
      | cons r rest => exact ih _ _ (hI r s h)

@[simp] theorem settle_pending (n : Nat) (rs : List Report) (s : State) : (settle n rs s).pending = s.pending :=
  settle_keeps _ deliver_pending n rs s

@[simp] theorem settle_phase (n : Nat) (rs : List Report) (s : State) : (settle n rs s).phase = s.phase :=
  settle_keeps _ deliver_phase n rs s

@[simp] theorem settle_cfg (n : Nat) (rs : List Report) (s : State) : (settle n rs s).cfg = s.cfg :=
  settle_keeps _ deliver_cfg n rs s

@[simp] theorem settle_configClamped (n : Nat) (rs : List Report) (s : State) :
    (settle n rs s).configClamped = s.configClamped := settle_keeps _ deliver_configClamped n rs s

@[simp] theorem settle_retainedDamaged (n : Nat) (rs : List Report) (s : State) :
    (settle n rs s).retainedDamaged = s.retainedDamaged := settle_keeps _ deliver_retainedDamaged n rs s

@[simp] theorem take_pending (rs : List Report) (s : State) : (s.take rs).pending = s.pending := settle_pending _ _ _

@[simp] theorem take_phase (rs : List Report) (s : State) : (s.take rs).phase = s.phase := settle_phase _ _ _

@[simp] theorem take_cfg (rs : List Report) (s : State) : (s.take rs).cfg = s.cfg := settle_cfg _ _ _

@[simp] theorem take_configClamped (rs : List Report) (s : State) :
    (s.take rs).configClamped = s.configClamped := settle_configClamped _ _ _

@[simp] theorem take_retainedDamaged (rs : List Report) (s : State) :
    (s.take rs).retainedDamaged = s.retainedDamaged := settle_retainedDamaged _ _ _

@[simp] theorem run_pending (rs : List Report) (s : State) : (s.run rs).pending = s.pending := by
  simp only [State.run]; split <;> simp

/-! ### Kept changes and the contacts -/

/-- With no change kept a contact stands as its input's state says. -/
@[simp] theorem contact_of_kept_nil (x : Fli) (i : Input) (h : x.kept = []) : x.contact i = inputLevel x.inputs i := by
  simp [Fli.contact, h]

theorem inputLevel_setInput (l : Levels) (i j : Input) (b : Bool) :
    inputLevel (setInput l i b) j = if i = j then b else inputLevel l j := by
  cases i <;> cases j <;> try rfl
  next n m => cases n <;> cases m <;> rfl

/-- A change that is kept moves its own contact alone. -/
theorem fliKeep_contact (x : Fli) (i j : Input) (b : Bool) :
    (fliKeep x i b).1.contact j = if i = j then b else x.contact j := by
  by_cases h : i = j <;> simp [fliKeep, Fli.contact, h]

@[simp] theorem fliFeedback_kept (x : Fli) (d : Device) (b : Bool) (u : List Report) :
    (fliFeedback x d b u).1.kept = x.kept := by
  simp only [fliFeedback]; (repeat' split) <;> simp

@[simp] theorem fliFeedback_inputs (x : Fli) (d : Device) (b : Bool) (u : List Report) :
    (fliFeedback x d b u).1.inputs = x.inputs := by
  simp only [fliFeedback]; (repeat' split) <;> simp

@[simp] theorem fliFeedback_valve (x : Fli) (d : Device) (b : Bool) (u : List Report) :
    (fliFeedback x d b u).1.valve = x.valve := by
  simp only [fliFeedback]; (repeat' split) <;> simp

@[simp] theorem fliTake_kept (x : Fli) (i : Input) (b : Bool) : (fliTake x i b).1.kept = x.kept := by
  cases i <;> simp [fliTake]

@[simp] theorem fliTake_inputs (x : Fli) (i : Input) (b : Bool) :
    (fliTake x i b).1.inputs = setInput x.inputs i b := by
  cases i <;> simp [fliTake]

@[simp] theorem fliTake_valve (x : Fli) (i : Input) (b : Bool) : (fliTake x i b).1.valve = valveAfter i b x.valve := by
  cases i <;> simp [fliTake]

@[simp] theorem fliChange_kept (x : Fli) (i : Input) (b : Bool) : (fliChange x i b).1.kept = x.kept := by
  simp only [fliChange]; split <;> simp

/-- An input found at a level has that level. -/
theorem fliChange_inputLevel (x : Fli) (i j : Input) (b : Bool) :
    inputLevel (fliChange x i b).1.inputs j = if i = j then b else inputLevel x.inputs j := by
  simp only [fliChange]
  split
  next h => split <;> simp_all
  · simp [inputLevel_setInput]

/-- The report of a kept change leaves every contact as it stands. -/
theorem fliReportKept_contact (x : Fli) (j : Input) : (fliReportKept x).1.contact j = x.contact j := by
  obtain h | ⟨k, rest, h⟩ : x.kept = [] ∨ ∃ k rest, x.kept = k :: rest := by cases x.kept <;> simp
  · simp [fliReportKept, h]
  · simp only [fliReportKept, h, Fli.contact, fliChange_kept, fliChange_inputLevel, List.reverse_cons,
      List.find?_append]
    cases hf : rest.reverse.find? fun y => y.1 == j with
    | some y => simp
    | none => by_cases e : k.1 = j <;> simp [e]

/-! ### The units of a total -/

/-- A unit booked before `k` others makes `k + 1` of them in the store. -/
theorem booked_succ (t : Store) (first second : Interval) (k : Nat) :
    ({ t with interval := t.interval.touch first } : Store).booked second k = t.booked first (k + 1) := by
  have twice : (t.interval.touch first).touch second = { t.interval.touch first with again := true } := by
    rcases t.interval with ⟨stored, _ | c, again⟩ <;> rfl
  match k with
  | 0 => rfl
  | 1 => simp [Store.booked, twice]
  | k + 2 => simp [Store.booked, twice]

/-- A changed open interval is handed to the SR, and what is behind is worked off. -/
theorem settle_withInterval (n : Nat) (s : State) (i : Interval) (rest : List Report) (h : i ≠ s.bu.interval) :
    settle (n + 1) ((withInterval s.bu i).2 ++ rest) { s with bu := (withInterval s.bu i).1 } =
      settle n rest
        { s with
          bu := { s.bu with interval := i }, store := { s.store with interval := s.store.interval.touch i } } := by
  simp [withInterval, h, settle_cons, deliver, srHandle, Store.touch]

/-- The units of a total booked one by one: the open interval passes through `path`, at most to its place `room`, and each
change is handed to the SR (R3, R142, R180). -/
theorem settle_units (m : Nat → BuMsg) (up : Interval → Interval)
    (hz : ∀ s, deliver (.bu (m 0)) s = (s, []))
    (hm : ∀ k s, buHandle (m (k + 1)) s = bookUnit s.bu (up s.bu.interval) k m)
    (k n room : Nat) (path : Nat → Interval) (s : State) (h0 : path 0 = s.bu.interval)
    (hup : ∀ j < room, up (path j) = path (j + 1)) (hne : ∀ j < room, path (j + 1) ≠ path j)
    (hend : up (path room) = path room) (hn : 2 * k < n) :
    settle n [.bu (m k)] s =
      { s with
        bu := { s.bu with interval := path (min k room) }, store := s.store.booked (path 1) (min k room) } := by
  induction k generalizing n room path s with
  | zero =>
      obtain ⟨n, rfl⟩ : ∃ l, n = l + 1 := ⟨n - 1, by omega⟩
      simp [settle_cons, hz, Store.booked, h0]
  | succ k ih =>
      obtain ⟨n, rfl⟩ : ∃ l, n = l + 2 := ⟨n - 2, by omega⟩
      have hd : deliver (.bu (m (k + 1))) s =
          ({ s with bu := (withInterval s.bu (up s.bu.interval)).1 },
            (withInterval s.bu (up s.bu.interval)).2 ++ if k = 0 then [] else [.bu (m k)]) := by
        simp [deliver, hm, bookUnit]
      rw [settle_cons, hd, List.append_nil]
      match room with
      | 0 =>
          have he : up s.bu.interval = s.bu.interval := by rw [← h0]; exact hend
          have hw : withInterval s.bu (up s.bu.interval) = (s.bu, []) := by simp [withInterval, he]
          by_cases hk : k = 0
          · simp [hw, hk, h0, Store.booked]
          · simp only [hw, hk, if_false, List.nil_append]
            rw [ih (n + 1) 0 path s h0 hup hne hend (by omega)]
            simp [h0]
      | room + 1 =>
          have h1 : up s.bu.interval = path 1 := by rw [← h0]; exact hup 0 (by omega)
          rw [h1, settle_withInterval n s (path 1) _ (by rw [← h0]; exact hne 0 (by omega))]
          by_cases hk : k = 0
          · simp [hk, Store.booked]
          · simp only [hk, if_false]
            rw [ih n room (fun j => path (j + 1)) _ rfl (fun j hj => hup (j + 1) (by omega))
              (fun j hj => hne (j + 1) (by omega)) hend (by omega)]
            have hu : min (k + 1) (room + 1) = min k room + 1 := by omega
            simp only [hu, booked_succ]

theorem satAdd_one {max a : Nat} (h : a < max) : satAdd max a 1 = a + 1 := by simp only [satAdd]; split <;> omega

@[simp] theorem satAdd_full (max : Nat) : satAdd max max 1 = max := by simp [satAdd]

/-- The Wh of the set's total. -/
theorem settle_seUnits (k n : Nat) (s : State) (h : s.bu.interval.setE ≤ max40) (hn : 2 * k < n) :
    settle n [.bu (.seUnits k)] s =
      let u := min k (max40 - s.bu.interval.setE)
      { s with
        bu := { s.bu with interval := { s.bu.interval with setE := s.bu.interval.setE + u } }
        store := s.store.booked { s.bu.interval with setE := s.bu.interval.setE + 1 } u } :=
  settle_units .seUnits (fun i => { i with setE := satAdd max40 i.setE 1 }) (fun _ => rfl) (fun _ _ => rfl) k n
    (max40 - s.bu.interval.setE) (fun j => { s.bu.interval with setE := s.bu.interval.setE + j }) s rfl
    (fun j hj => by simp only [satAdd_one (show s.bu.interval.setE + j < max40 by omega), Nat.add_assoc])
    (fun j _ he => by have := congrArg Interval.setE he; simp only at this; omega)
    (by simp only [Nat.add_sub_cancel' h, satAdd_full]) hn

@[simp] theorem quad_put_put {α : Type} (q : Quad α) (n : FeederId) (a b : α) : (q.put n a).put n b = q.put n b := by
  cases n <;> rfl

theorem quad_put_get {α : Type} (q : Quad α) (n : FeederId) : q.put n (q.get n) = q := by cases n <;> rfl

/-- The Wh of the total of a feeder with accumulators. -/
theorem settle_fUnits (f : FeederId) (a : FeederAcc) (k n : Nat) (s : State)
    (ha : s.bu.interval.feeders.get f = some a) (h : a.e ≤ max32) (hn : 2 * k < n) :
    settle n [.bu (.fUnits f k)] s =
      let u := min k (max32 - a.e)
      let raised (j : Nat) : Interval :=
        { s.bu.interval with feeders := s.bu.interval.feeders.put f (some { a with e := a.e + j }) }
      { s with bu := { s.bu with interval := raised u }, store := s.store.booked (raised 1) u } :=
  settle_units (.fUnits f) (fun i => onFeeder i f fun a => { a with e := satAdd max32 a.e 1 }) (fun _ => rfl)
    (fun _ _ => rfl) k n (max32 - a.e)
    (fun j => { s.bu.interval with feeders := s.bu.interval.feeders.put f (some { a with e := a.e + j }) }) s
    (by simp only [Nat.add_zero, ← ha, quad_put_get])
    (fun j hj => by simp [onFeeder, satAdd_one (show a.e + j < max32 by omega), Nat.add_assoc])
    (fun j _ he => by
      have := congrArg (fun i => (i.feeders.get f).map FeederAcc.e) he
      simp only [Quad.get_put_same, Option.map_some, Option.some.injEq] at this
      omega)
    (by simp [onFeeder, Nat.add_sub_cancel' h]) hn

/-- A feeder without accumulators books nothing. -/
theorem settle_fUnits_none (f : FeederId) (k n : Nat) (s : State) (ha : s.bu.interval.feeders.get f = none)
    (hn : 2 * k < n) : settle n [.bu (.fUnits f k)] s = s := by
  have := settle_units (.fUnits f) (fun i => onFeeder i f fun a => { a with e := satAdd max32 a.e 1 }) (fun _ => rfl)
    (fun _ _ => rfl) k n 0 (fun _ => s.bu.interval) s rfl (fun _ hj => by omega) (fun _ hj => by omega)
    (by
      have : s.bu.interval.feeders.put f none = s.bu.interval.feeders := by rw [← ha, quad_put_get]
      simp [onFeeder, ha, this]) hn
  simpa [Store.booked] using this

/-! ### Control reports -/

theorem settle_control {α : Type} (f : State → α) (hf : ∀ r s, r.control = true → f (deliver r s).1 = f s) (n : Nat)
    (rs : List Report) (s : State) (h : rs.all Report.control = true) : f (settle n rs s) = f s :=
  settle_keeps_of _ control_closed f hf n rs s h

/-- Control reports leave the channels, the books and the store alone. -/
theorem settle_control_books (n : Nat) (rs : List Report) (s : State) (h : rs.all Report.control = true) :
    (settle n rs s).pcu = s.pcu ∧ (settle n rs s).fu = s.fu ∧ (settle n rs s).bu = s.bu ∧
      (settle n rs s).store = s.store := by
  refine ⟨settle_control (·.pcu) ?_ n rs s h, settle_control (·.fu) ?_ n rs s h, settle_control (·.bu) ?_ n rs s h,
    settle_control (·.store) ?_ n rs s h⟩ <;>
  · intro r s hr
    cases r <;> first | rfl | exact absurd hr (by simp [Report.control])

@[simp] theorem fliCommand_inputs (x : Fli) (d : Device) (c : Sense) : (fliCommand x d c).1.inputs = x.inputs := by
  simp only [fliCommand, fliIssue]; (repeat' split) <;> simp

@[simp] theorem fliPulseEnd_inputs (x : Fli) (d : Device) : (fliPulseEnd x d).1.inputs = x.inputs := by
  simp only [fliPulseEnd, fliIssue]; (repeat' split) <;> simp

@[simp] theorem fliLimit_inputs (x : Fli) (d : Device) : (fliLimit x d).1.inputs = x.inputs := by
  simp only [fliLimit]; (repeat' split) <;> simp

/-- Only a level at an input and the report of a kept one change the inputs. -/
theorem fliHandle_inputs (m : FliMsg) (s : State) (h : ∀ i b n, m ≠ .level i b n) (hk : m ≠ .reportKept) :
    (fliHandle m s).1.inputs = s.fli.inputs := by
  cases m with
  | level i b n => exact absurd rfl (h i b n)
  | command d c => simp [fliHandle]
  | pulseEnd d => simp [fliHandle]
  | limit d => simp [fliHandle]
  | valve b => simp [fliHandle]
  | auxRow st => simp only [fliHandle]; split <;> simp
  | reportKept => exact absurd rfl hk

/-- Control reports leave the inputs alone. -/
theorem settle_control_inputs (n : Nat) (rs : List Report) (s : State) (h : rs.all Report.control = true) :
    (settle n rs s).fli.inputs = s.fli.inputs := by
  refine settle_control (·.fli.inputs) ?_ n rs s h
  intro r s hr
  cases r with
  | fli m =>
      refine fliHandle_inputs m s ?_ ?_
      · rintro i b n rfl
        simp [Report.control] at hr
      · rintro rfl
        simp [Report.control] at hr
  | _ => rfl

/-- Control reports leave the peer table and the clock alone. -/
theorem settle_control_pt (n : Nat) (rs : List Report) (s : State) (h : rs.all Report.control = true) :
    (settle n rs s).pt.kept = s.pt.kept := by
  refine settle_control (·.pt.kept) ?_ n rs s h
  intro r s hr
  cases r with
  | pt m =>
      cases m <;> simp only [Report.control, Bool.false_eq_true] at hr <;>
        simp only [deliver, ptHandle] <;> (repeat' split) <;> rfl
  | _ => rfl

/-! ### Inner reports -/

theorem settle_inner {α : Type} (f : State → α) (hf : ∀ r s, r.inner = true → f (deliver r s).1 = f s) (n : Nat)
    (rs : List Report) (s : State) (h : rs.all Report.inner = true) : f (settle n rs s) = f s :=
  settle_keeps_of _ inner_closed f hf n rs s h

/-- Inner reports leave the channels alone. -/
theorem settle_inner_pcu (n : Nat) (rs : List Report) (s : State) (h : rs.all Report.inner = true) :
    (settle n rs s).pcu = s.pcu := by
  refine settle_inner (·.pcu) ?_ n rs s h
  intro r s hr
  cases r <;> first | rfl | exact absurd hr (by simp [Report.inner])

/-- Inner reports leave the inputs alone. -/
theorem settle_inner_inputs (n : Nat) (rs : List Report) (s : State) (h : rs.all Report.inner = true) :
    (settle n rs s).fli.inputs = s.fli.inputs := by
  refine settle_inner (·.fli.inputs) ?_ n rs s h
  intro r s hr
  cases r with
  | fli m =>
      refine fliHandle_inputs m s ?_ ?_
      · rintro i b n rfl
        simp [Report.inner] at hr
      · rintro rfl
        simp [Report.inner] at hr
  | _ => rfl

/-- Inner reports leave the peer table and the clock alone; its floor they may write. -/
theorem settle_inner_pt (n : Nat) (rs : List Report) (s : State) (h : rs.all Report.inner = true) :
    (settle n rs s).pt.view = s.pt.view := by
  refine settle_inner (·.pt.view) ?_ n rs s h
  intro r s hr
  cases r with
  | pt m =>
      cases m <;> simp only [Report.inner, Bool.false_eq_true] at hr <;>
        simp only [deliver, ptHandle] <;> (repeat' split) <;> rfl
  | _ => rfl

end Sys2Proof.Machine
end

