-- ==== Sys2Proof/WellFormed.lean ====
section
/-! DEFINITION. The well-formed commands: the operands the spec's tables admit. The meanings are total and do not need it. -/

namespace Sys2Proof

/-- A payload is 0 to 48 characters (Table 9-1). -/
def payloadFits (payload : List Byte) : Bool := decide (payload.length ≤ 48)

/-- The parameters of a tool command stand behind its sub-kind and tag in the payload (Table 9-12). -/
def paramsFit (params : List Byte) : Bool := decide (params.length ≤ 46)

/-- A step of the start order (Table 10-1). -/
def isStartStep (n : Nat) : Bool := decide (1 ≤ n) && decide (n ≤ 10)

/-- An event inside a start: a frame's payload fits. -/
def StartEvent.wellFormed : StartEvent → Bool
  | .pulse _ _ _ => true
  | .change _ _ _ => true
  | .frame _ _ payload => payloadFits payload

/-- What a start finds: at most 512 bytes of image (R178), events and abandonment after steps 1 to 10. -/
def StartInputs.wellFormed (inp : StartInputs) : Bool :=
  decide (inp.image.length ≤ 512) && inp.during.all (fun e => isStartStep e.1 && e.2.wellFormed) &&
  (match inp.abandonAfter with
   | some k => isStartStep k
   | none => true)

/-- A sub-kind of Table 9-5. -/
def isSubKind (b : Byte) : Bool := decide (1 ≤ b.toNat) && decide (b.toNat ≤ 10)

/-- The operands of a command are ones the spec's tables admit. -/
def Instr.wellFormed : Instr → Bool
  | .powerOn inp | .resetInput inp | .restartHandover inp => inp.wellFormed
  | .confirmLimitExpiry d => d != .genset
  | .peerAgeExpiry station => decide (1 ≤ station) && decide (station ≤ 27)
  | .stateReceived _ payload | .startIntentReceived _ payload | .stopIntentReceived _ payload
  | .deadbusClaimReceived _ payload | .callReceived _ payload | .offerReceived _ payload | .pickReceived _ payload
  | .readyReceived _ payload | .stepReceived _ payload | .endReceived _ payload | .abortReceived _ payload
  | .holdReceived _ payload | .deliveryOpen _ payload | .deliveryClose _ payload | .visit _ payload
  | .visitEnd _ payload | .costReceived _ payload => payloadFits payload
  | .timeSet _ _ params | .handoverRequest _ _ params | .handoverAbort _ _ params | .reconcile _ _ params
  | .tankQuery _ _ params | .statementClose _ _ params | .accountQuery _ _ params | .statementQuery _ _ params
  | .journalQuery _ _ params | .restart _ _ params => paramsFit params
  | .unknownToolCommand _ subKind _ params => !isSubKind subKind && paramsFit params
  | .frameDiscarded first _ => first.head? == some false
  | .collision place readback => decide (place < 56) && decide (readback.length ≤ 12)
  | .powerFail | .pulseAccepted _ _ _ | .retainedWriteComplete _ | .windowExpiry _ | .inputChange _ _ _ | .pulseEnd _
  | .heartbeatExpiry | .runSecond | .secondTimerExpiry | .startTimerExpiry | .cooldownExpiry | .stopRepeatExpiry
  | .rampSecond | .rampTimerExpiry | .joinTimerExpiry | .startDwellExpiry | .stopDwellExpiry | .intentHoldExpiry
  | .deadbusTimerExpiry | .escalationExpiry | .claimHoldExpiry | .claimWaitExpiry | .offerWindowExpiry
  | .offerTimerExpiry | .retryWaitExpiry | .prepareLimitExpiry | .prepareTimeoutExpiry | .gapLimitExpiry
  | .endWaitExpiry | .confirmWindowExpiry | .settleHoldExpiry | .restoreSpacingExpiry | .scSecondTimer
  | .reconciliationTimerExpiry | .deliveryRecordExpiry | .claimRepeatExpiry | .flowStallExpiry | .pauseTimerExpiry
  | .accessWaitComplete | .frameSent | .backoffExpiry | .lineStartBit => true

end Sys2Proof
end

