-- ==== Sys2Proof/Tests/Slice0.lean ====
section
/-! SUPPORT. Tests: ill-formed commands refused, values of the spec's own examples, one step of each family, and for every statement with hypotheses a state and operands that meet them. -/

namespace Sys2Proof.Machine

/-! ### A small cell -/

/-- A cell with everything fitted: station 5 of group 4. -/
def cell : Cfg :=
  { Cfg.blank with
    station := 5, group := 4, setFitted := true, tankFitted := true, closedCap := true, fitted := Quad.all true
    heartbeat := 1000, rating := 500, capacity := 2000, fE := 100, fF := 1000
    se := ⟨1, 100, 60, 10⟩, bf := ⟨2, 1, 60, 10⟩, ff := ⟨1, 1, 60, 10⟩, lp := ⟨1, 1, 10, 10⟩
    f := Quad.all ⟨1, 100, 60, 10⟩, startThr := 80, stopThr := 40, startDwell := 30, stopDwell := 120
    cooldown := 300, rampRate := 5, overload := 98, restore := 80, low := 60, critical := 15, tolerance := 200
    claimThr := 180, fillLimit := 95, standby := 100, intervalLen := 15
    tenant := Quad.all 1207, cls := ⟨.amenity, .vendor, .showClass, .protectedClass⟩
    bands := ⟨⟨true, 600, 150, 40, 2400, 66667⟩, .blank, .blank, .blank⟩, aux := [1, 2, 3, 4, 5, 6, 7, 8] }

/-- The cell running, its line idle. -/
def on : State :=
  { State.reset with phase := .running, cfg := cell, lc := { Lc.start with enabled := true, rx := Rx.between } }

def onDu (d : Du) : State := { on with du := d }
def onCc (c : Cc) : State := { on with cc := c }
def onSc (c : Sc) : State := { on with sc := c }
def onFu (f : Fu) : State := { on with fu := f }
def onLc (l : Lc) : State := { on with lc := l }
def onInputs (l : Levels) : State := { on with fli := { Fli.start with inputs := l } }

/-- A peer, station 7 of the group; a tool and a terminal. -/
def peer : Header := ⟨7, 4, 0⟩
def tool : Header := ⟨28, 0, 5⟩
def terminal : Header := ⟨31, 0, 0⟩

/-- The state a command leads to. -/
def after (c : Instr) (s : State) : State :=
  match exec c s with
  | .next t => t
  | .fault _ | .refused _ => s

/-! ### Ill-formed commands -/

def found : StartInputs := ⟨[], Levels.inactive, [], none⟩

theorem test_long_image_refused :
    (Instr.powerOn { found with image := List.replicate 513 0 }).wellFormed = false := by decide +kernel
theorem test_event_before_step_1_refused :
    (Instr.resetInput { found with during := [(0, .pulse .se 10 10)] }).wellFormed = false := by decide
theorem test_event_after_step_10_refused :
    (Instr.restartHandover { found with during := [(11, .pulse .se 10 10)] }).wellFormed = false := by decide
theorem test_long_frame_inside_a_start_refused :
    (Instr.powerOn { found with during := [(8, .frame peer 0x10 (List.replicate 49 0))] }).wellFormed = false := by
  decide
theorem test_abandoned_after_no_step_refused :
    (Instr.powerOn { found with abandonAfter := some 11 }).wellFormed = false := by decide
theorem test_confirm_of_the_set_refused : (Instr.confirmLimitExpiry .genset).wellFormed = false := by decide
theorem test_peer_0_refused : (Instr.peerAgeExpiry 0).wellFormed = false := by decide
theorem test_peer_28_refused : (Instr.peerAgeExpiry 28).wellFormed = false := by decide
theorem test_long_payload_refused : (Instr.costReceived peer (List.replicate 49 0)).wellFormed = false := by decide
theorem test_long_parameters_refused : (Instr.timeSet tool 1 (List.replicate 47 0)).wellFormed = false := by decide
theorem test_known_sub_kind_refused : (Instr.unknownToolCommand tool 10 1 []).wellFormed = false := by decide
theorem test_frame_without_bits_refused : (Instr.frameDiscarded [] [false]).wellFormed = false := by decide
theorem test_frame_without_start_bit_refused : (Instr.frameDiscarded [true] []).wellFormed = false := by decide
theorem test_readback_past_a_frame_refused : (Instr.collision 56 []).wellFormed = false := by decide
theorem test_long_readback_refused : (Instr.collision 0 (List.replicate 13 true)).wellFormed = false := by decide
theorem test_well_formed :
    (Instr.powerOn ⟨List.replicate 512 0, Levels.inactive, [(10, .pulse .se 10 10)], some 1⟩).wellFormed = true ∧
      (Instr.peerAgeExpiry 27).wellFormed = true ∧ (Instr.collision 55 (List.replicate 12 true)).wellFormed = true ∧
      (Instr.frameDiscarded [false] []).wellFormed = true ∧ (Instr.unknownToolCommand tool 11 1 []).wellFormed = true := by
  decide +kernel

/-! ### Values of the spec's examples -/

/-- The check word of the ASCII digits 1 to 9 (R164). -/
theorem test_check_word : crc [0x31, 0x32, 0x33, 0x34, 0x35, 0x36, 0x37, 0x38, 0x39] = 0x29B1#16 := by decide +kernel

/-- The start code as it is sent; one stop bit is enough; a wrong parity bit and a stop bit at the start level (R162). -/
theorem test_characters :
    let start : List Bool := [false, true, true, false, false, false, false, true, true, true, true, true]
    sentBits 0xC3 = start ∧ sentBits 1 = [false, true] ++ List.replicate 8 false ++ [true, true] ∧
      receiveChars (start ++ (sentBits 5).take 11 ++ [true] ++ sentBits 7) = [(0xC3, false), (5, false), (7, false)] ∧
      receiveChars (start.set 9 false) = [(0xC3, true)] ∧ receiveChars (start.set 10 false) = [(0xC3, true)] ∧
      receiveChars (start.set 1 false) = [(0xC2, true)] ∧ receiveChars [true, true] = [] := by decide +kernel

/-- The standing rates of R149. -/
theorem test_standing_rates :
    standingPerSecond 2400 = 66667 ∧ standingPerSecond 1200 = 33333 ∧ standingPerSecond 65535 = 1820417 := by decide

/-- The age timers of R25. -/
theorem test_age_timers : ageOf 2000 = 6200 ∧ ageOf 500 = 1700 := by decide

/-- Restore spacing of stations 1 and 27 (R103). -/
theorem test_restore_spacing : restoreSpacing 1 = 5200 ∧ restoreSpacing 27 = 10400 := by decide

/-- The end point reckoned from 09:50: the band at 10:00 before the multiple of 15 minutes, which is 10:00 too (R143). -/
theorem test_end_point : endPointAfter cell 35400 = 36000 ∧ endPointAfter cell 36000 = 36900 := by decide

/-- The probe map both ways (R7). -/
theorem test_probe_levels :
    probeLevel 100 1000 20000 10 1000 = 0 ∧ probeLevel 100 1000 20000 10 5500 = 10000 ∧
      probeLevel 1000 100 20000 10 5500 = 10000 ∧ probeLevel 100 1000 20000 10 20000 = 20000 := by decide

/-- Every command word of the table spells nothing: the table gives no bits. -/
theorem test_no_words : decodeTableWord 0 0 = none := rfl

/-! ### A start -/

/-- A configuration image of the cell, all but its check. -/
def imageBody : List Byte :=
  [5, 4, 0xF7] ++ beBytes 2 1000 ++ beBytes 2 500 ++ beBytes 2 2000 ++ beBytes 2 100 ++ beBytes 2 1000 ++
  (List.replicate 8 ([1] ++ beBytes 2 1 ++ [60] ++ beBytes 2 10)).flatten ++
  [80, 40, 30] ++ beBytes 2 120 ++ beBytes 2 300 ++ [5, 98, 80, 60, 15] ++ beBytes 2 200 ++ beBytes 2 180 ++ [95] ++
  beBytes 2 100 ++ [15, 3, 2, 1] ++ beBytes 2 1207 ++ beBytes 2 1207 ++ beBytes 2 0 ++ beBytes 2 9 ++
  [4, 2, 2, 3] ++ (beBytes 2 600 ++ beBytes 2 150 ++ beBytes 2 40 ++ beBytes 2 2400) ++
  (List.replicate 3 [0xFF, 0xFF, 0, 0, 0, 0, 0, 0]).flatten ++ [1, 2, 3, 4, 5, 6, 7, 8] ++ List.replicate 374 0

def image : List Byte := imageBody ++ beBytes 2 (crc imageBody).toNat

theorem test_image_usable : imageUsable image = true ∧ (loadConfig image).2 = false := by decide +kernel

theorem test_power_on_starts_the_part :
    (after (.powerOn { found with image := image }) State.reset).phase = .running := by decide +kernel

theorem test_empty_image_halts :
    (after (.powerOn found) State.reset).phase = .unusable ∧
      (after (.powerOn found) State.reset).alertOutput = true := by decide

/-! ### One step of each family -/

/-- A pulse at SE, prescale 1: a count, its weight in the total, handed to the BU (R2, R3, R143). -/
theorem test_pulse_counts :
    ((after (.pulseAccepted .se 10 10) on).pcu.se.total, (after (.pulseAccepted .se 10 10) on).bu.interval.setE) =
      (100, 100) := by decide +kernel

/-- The 100 Wh of that count: the first begins the write of the interval record, the others mark it (R142, R180). -/
theorem test_units_mark_the_record :
    let r := (after (.pulseAccepted .se 10 10) on).store.interval
    (r.writing.map (·.setE), r.again) = (some 1, true) := by decide +kernel

/-- FILL KEY goes off with VALVE open (R15). -/
theorem test_key_off_closes_the_valve :
    (after (.inputChange .fillKey false 20)
      { on with fli := { Fli.start with inputs := { Levels.inactive with fillKey := true }, valve := true } }).fli.valve
      = false := by decide

theorem test_start_timer_faults_the_set :
    (after .startTimerExpiry (onDu { Du.start with state := .cranking, startTimer := some 120000 })).du.state =
      .fault := by decide +kernel

theorem test_ramp_falls :
    (after .rampSecond (onDu { Du.start with state := .rampdown, share := 800 })).du.share = 750 := by decide

theorem test_offer_timer_returns_to_idle :
    (after .offerTimerExpiry (onCc { Cc.start with
        state := .offered, inc := some ⟨7, 1, none, false, false⟩, offerTimer := some 5000 })).cc.state = .idle := by
  decide +kernel

theorem test_tank_query_is_answered :
    ((after (.tankQuery tool 9 []) on).lc.answer.map (·.result)) = some .done := by decide +kernel

theorem test_time_set_makes_the_clock_valid :
    (after (.timeSet tool 9 [0, 0, 1, 0]) on).pt.clockValid = true := by decide +kernel

theorem test_frame_sent_leaves_the_queue :
    (after .frameSent (onLc { Lc.start with
        enabled := true, sending := true, queue := [groupFrame cell .state 0 []] })).lc.queue = [] := by decide

/-! ### The hypotheses of the statements can be met

One theorem per statement; a clause stands at a boundary value of its range. -/

theorem test_witness_StepRunsTheFrontCommand :
    ({ on with pending := [.heartbeatExpiry, .frameSent] } : State).pending = .heartbeatExpiry :: [.frameSent] := rfl

theorem test_witness_EveryCommandCompletes : State.reset.pending = [] := rfl

theorem test_witness_ConfigurationStandsBetweenStarts :
    Instr.startsOrStops .runSecond = false ∧ ∃ t, exec .runSecond on = .next t := ⟨rfl, _, rfl⟩

theorem test_witness_HaltedPartTakesNothing :
    State.reset.phase = .off ∧ ({ on with phase := .unusable } : State).phase = .unusable ∧
      Instr.startsOrStops .frameSent = false := by decide

theorem test_witness_UnusableImageHaltsTheStart :
    imageUsable [] = false ∧ abandonedBefore ⟨[], Levels.inactive, [], some 2⟩ 2 = false ∧ on.phase ≠ .off ∧
      (onLc { Lc.start with restart := .ready }).isUp = true ∧
      (onLc { Lc.start with restart := .ready }).lc.restart = .ready := by decide

theorem test_witness_UsableImageStartsThePart :
    imageUsable image = true ∧ found.abandonAfter = none ∧ on.phase ≠ .off ∧
      (onLc { Lc.start with restart := .ready }).isUp = true ∧
      (onLc { Lc.start with restart := .ready }).lc.restart = .ready := by decide +kernel

/-- The four ranks of R154, the oldest dormant slot at its ties, and records of each kind. -/
theorem test_witness_UsableImageStartsThePart_records :
    let slot (tenant : Nat) (last : Option Nat) : Slot := { Slot.free with tenant := tenant, lastClock := last }
    let marked : Slot := { Slot.free with reopened := true }
    findSlot [slot 9 none, slot 7 none] 7 = some (1, slot 7 none) ∧
      findSlot [Slot.free, marked] 7 = some (1, Slot.opened 7 true) ∧
      findSlot [slot 9 none, Slot.free] 7 = some (1, Slot.opened 7 false) ∧
      findSlot [slot 8 (some 4), slot 9 (some 3), slot 6 (some 3)] 7 = some (1, Slot.opened 7 false) ∧
      findSlot [slot 8 (some 4), slot 9 none] 7 = some (1, Slot.opened 7 false) ∧
      findSlot [{ slot 8 none with status := .live }] 7 = none ∧ on.cfg.bills 1207 = true ∧
      on.cfg.tankFitted = true ∧ State.reset.cfg.tankFitted = false ∧ Store.new.clockFloor.stored = .absent ∧
      (⟨.good 9, some 8, true⟩ : Rec Nat).cut.stored = .damaged ∧ (⟨.good 9, none, false⟩ : Rec Nat).stored = .good 9 ∧
      Interval.blank.band = none ∧ (takeBand cell 36000).isSome = true ∧
      (openInterval cell 36000).band.isSome = true := by decide +kernel

/-- Each row of Table 3-2. -/
theorem test_witness_StartRebuildsTheSet :
    let state (r b f y : Bool) : SetState :=
      (startStep 6 found (onInputs { Levels.inactive with running := r, brk := b, fault := f, ready := y })).du.state
    state true true true true = .fault ∧ state false true false true = .fault ∧
      state false false false true = .stopped ∧ state true true false false = .onbus ∧
      state true false false true = .ready ∧ state true false false false = .warming := by decide +kernel

/-- A breaker found closed in FAULT is tripped (Table 3-2). -/
theorem test_witness_StartRebuildsTheSet_trip :
    (startStep 6 found (onInputs { Levels.inactive with brk := true })).fli.breaker = ⟨some .off, none, some .off⟩ ∧
      (startStep 6 found (onInputs { Levels.inactive with brk := true, running := true })).fli.breaker = Dev.idle := by
  decide +kernel

/-- Open feeders enter the shed list, PROTECTED first, then from the highest class down. -/
theorem test_witness_StartRebuildsTheSet_feeders :
    let order : ClassOrder := ⟨.amenity, .vendor, .showClass⟩
    let s : State := onInputs Levels.inactive
    on.cfg.fitted.get .f1 = true ∧ s.fli.inputs.ffb.get .f1 = false ∧
      [order.lowest, order.middle, order.highest].Nodup ∧
      FeederClass.protectedClass ∉ [order.lowest, order.middle, order.highest] ∧
      (startStep 6 found { s with cfg := { cell with order := order } }).sc.shedList.map (·.feeder) =
        [.f4, .f3, .f2, .f1] := by decide +kernel

theorem test_witness_ConfigurationIsClampedIntoRange :
    imageUsable image = true ∧ fieldAt image 96 2 ≠ 65535 ∧ fieldAt image 104 2 = 65535 ∧
      ((loadConfig image).1.bands.get .f1).inUse = true ∧ List.Perm [3, 2, 1] [1, 2, 3] ∧ ¬ List.Perm [1, 1, 2] [1, 2, 3] ∧
      (loadConfig image).2 = false := by decide +kernel

/-- An image with no band in use: the default band, and CONFIG CLAMPED. -/
theorem test_image_without_bands :
    let unused : List Byte := [0xFF, 0xFF, 0, 0, 0, 0, 0, 0]
    let body : List Byte := imageBody.take 96 ++ unused ++ imageBody.drop 104
    let p : List Byte := body ++ beBytes 2 (crc body).toNat
    imageUsable p = true ∧ (loadConfig p).1.bands.q1 = ⟨true, 0, 100, 0, 0, 0⟩ ∧ (loadConfig p).2 = true := by
  decide +kernel

/-- LOW and CRITICAL at and beyond their limits. -/
theorem test_witness_ThresholdsAreClamped :
    loadThresholds 19 15 = ((20, 15), true) ∧ loadThresholds 20 15 = ((20, 15), false) ∧
      loadThresholds 241 61 = ((240, 60), true) ∧ loadThresholds 240 60 = ((240, 60), false) ∧
      loadThresholds 20 16 = ((20, 15), true) ∧ loadThresholds 60 4 = ((60, 5), true) := by decide

theorem test_witness_RecordWritesEnd :
    on.isUp = true ∧ (⟨.absent, none, false⟩ : Rec Nat).writing = none ∧
      (⟨.absent, some 1, true⟩ : Rec Nat).writing = some 1 ∧ Store.new.slots[7]?.isSome = true := by decide

/-- BF counts every second pulse: below the prescale, and at it. -/
theorem test_witness_PulsesArePrescaled :
    on.phase = .running ∧ on.cfg.channelInUse .bf = true ∧ on.cfg.channelInUse .lp = true ∧
      pulseWide (on.cfg.chan .bf) none 10 10 = true ∧ (Channel.bf ≠ .lp) ∧
      (on.pcu.get .bf).remainder + 1 < (on.cfg.chan .bf).prescale ∧
      (on.cfg.chan .bf).prescale ≤ ((⟨none, 1, 0, 0, 0, 0⟩ : Chan).remainder + 1) ∧
      Chan.acceptMany (on.cfg.chan .bf) true 5 ⟨none, 1, 0, 0, 0, 0⟩ = (3, ⟨none, 0, 3, 3, 0, 0⟩) := by decide

/-- The totals a count hands over, and none from a first pulse of two, nor from LP (R3). -/
theorem test_witness_PulsesArePrescaled_totals :
    let told (c : Channel) (s : State) : List Report := (deliver (.pcu (.pulse c 10 10)) s).2
    told .bf on = [] ∧ told .lp on = [] ∧
      told .bf { on with pcu := { Pcu.start with bf := ⟨none, 1, 0, 0, 0, 0⟩ } } = [.fu (.bfTotal 1)] ∧
      told .se on = [.du (.seTotal 100), .bu (.seTotal 100)] ∧ told (.f .f4) on = [.bu (.fTotal .f4 100)] := by
  decide +kernel

theorem test_witness_PulsesWithoutEffect :
    State.reset.cfg.channelInUse .se = false ∧ 9 < (on.cfg.chan .se).minWidth ∧ on.phase = .running ∧
      ({ on with phase := .starting 4 } : State).phase = .starting 4 ∧ on.cfg.channelInUse .bf = true ∧
      pulseWide (on.cfg.chan .bf) none 10 10 = true := by decide

/-- Stretches of 6, 3 and 1 with narrow gaps between are one period of 10: one pulse, and no second (R1, log 13). -/
theorem test_active_period :
    let stretch (gap active : Nat) (s : State) : State := after (.pulseAccepted .lp gap active) s
    let two := stretch 9 3 (stretch 10 6 on)
    let three := stretch 9 1 two
    two.pcu.lp = { Chan.start with period := some 9 } ∧ three.pcu.lp = { Chan.start with count := 1 } ∧
      stretch 9 10 three = three ∧ (stretch 10 10 three).pcu.lp.count = 2 ∧ stretch 9 10 on = on := by decide +kernel

/-- An SE count of 10 in 60 s at 100 Wh: 60 kW; LP at fE and above, with the map either way. -/
theorem test_witness_WindowsLatchTheCount :
    on.phase = .running ∧ on.cfg.channelInUse .lp = true ∧ on.cfg.fE < on.cfg.fF ∧
      ({ on with cfg := { cell with fE := 1000, fF := 100 } } : State).cfg.fF <
        ({ on with cfg := { cell with fE := 1000, fF := 100 } } : State).cfg.fE ∧
      powerFigure cell.se 10 = 60 ∧
      (after (.windowExpiry .lp) { on with pcu := { Pcu.start with lp := ⟨none, 0, 0, 1001, 0, 0⟩ } }).pcu.level = some 2 ∧
      (after (.windowExpiry .lp) { on with pcu := { Pcu.start with lp := ⟨none, 0, 0, 1000, 0, 0⟩ } }).pcu.level = some 0 := by
  decide +kernel

/-- The figures handed on at an expiry: a level lets a waiting reconciliation run (R4, R120). -/
theorem test_witness_WindowsLatchTheCount_told :
    let f : Fu := { Fu.start with waitLevel := true }
    let s : State := { onFu f with pcu := { Pcu.start with lp := ⟨none, 0, 0, 1002, 0, 0⟩ } }
    (after (.windowExpiry .lp) s).fu.recon.origin = .afterVisit ∧ (after (.windowExpiry .lp) s).fu.waitLevel = false ∧
      (after (.windowExpiry .lp) s).fu.recon.level = 4 ∧ on.fu.waitLevel = false ∧ on.cfg.channelInUse .ff = true ∧
      (after (.windowExpiry .se) { on with pcu := { Pcu.start with se := ⟨none, 0, 0, 10, 0, 0⟩ } }).du.shareArmed =
        true := by decide +kernel

theorem test_witness_HeldLevelsAreTaken :
    on.phase = .running ∧ on.cfg.inputInUse .lock = true ∧ inputLevel on.fli.inputs .lock ≠ true ∧
      State.reset.cfg.inputInUse .running = false ∧ (20 ≤ 20) ∧ (19 < 20) ∧ on.cfg.inputInUse .brk = true ∧
      on.cfg.inputInUse (.ffb .f4) = true ∧ inputLevel on.fli.inputs .brk ≠ true ∧
      inputLevel on.fli.inputs (.ffb .f4) ≠ true ∧ (on.fli.dev .breaker).confirm = none ∧
      (⟨none, none, some .on⟩ : Dev).confirm = some .on ∧ Sense.target .on = true ∧ true ≠ Sense.target .off := by
  decide

/-- Changes handed to their units: RUNNING to the DU, BUS LIVE to the SC, SHOW to the PT, FILL KEY to VALVE. -/
theorem test_witness_HeldLevelsAreTaken_told :
    let live : State := { onInputs { Levels.inactive with busLive := true } with sc := { Sc.start with
      recs := Quad.all { Feeder.start with closed := true }, rotVendor := [.f2] } }
    (after (.inputChange .running true 20) on).du.state = .warming ∧ on.cfg.inputInUse .running = true ∧
      inputLevel on.fli.inputs .running ≠ true ∧
      (after (.inputChange .busLive false 20) live).sc.shedList = [⟨.f2, .deadBus⟩] ∧
      (after (.inputChange .showSwitch true 20) on).pt.figs.showActive = true ∧
      (after (.inputChange .showSwitch true 20) on).lc.queue.length = 1 := by decide +kernel

/-- A key turned off and on inside a start: VALVE closes at once, a request finds the contact, the changes are reported at
the end (R15, R177). -/
theorem test_witness_HeldLevelsAreTaken_kept :
    let s : State := { on with
      phase := .starting 8
      fli := { Fli.start with inputs := { Levels.inactive with fillKey := true }, valve := true } }
    let off := after (.inputChange .fillKey false 20) s
    let back := after (.inputChange .fillKey true 20) off
    let asks (s : State) : Bool := (deliver (.fli (.valve true)) s).1.fli.valve
    let reported : State := (deliver (.fli .reportKept) { back with phase := .running }).1
    off.fli.valve = false ∧ off.fli.kept = [(.fillKey, false)] ∧ off.fli.inputs.fillKey = true ∧ asks off = false ∧
      back.fli.valve = false ∧ asks back = true ∧ asks s = true ∧ reported.fli.kept = [(.fillKey, true)] ∧
      reported.fli.inputs.fillKey = false ∧ asks reported = false ∧ s.cfg.inputInUse .fillKey = true ∧
      (deliver (.fli .reportKept) on).1 = on := by decide +kernel

theorem test_witness_PulseEndIssuesTheDeferred :
    let s : State := { on with fli := { Fli.start with
      genset := ⟨some .off, some .on, none⟩, breaker := ⟨some .on, some .off, some .on⟩
      feeder := ⟨⟨some .on, none, none⟩, ⟨some .off, some .on, none⟩, .idle, .idle⟩ } }
    s.isUp = true ∧ (s.fli.dev (.feeder .f3)).pulse = none ∧ (s.fli.dev (.feeder .f1)).pulse = some .on ∧
      (s.fli.dev (.feeder .f1)).deferred = none ∧ (s.fli.dev .genset).deferred = some .on ∧
      (s.fli.dev .breaker).deferred = some .off ∧ feedback s.fli.inputs .breaker = some (Sense.target .off) ∧
      (s.fli.dev (.feeder .f2)).deferred = some .on ∧
      feedback s.fli.inputs (.feeder .f2) = some (!Sense.target .on) := by decide

theorem test_witness_CommandsToADevice :
    let x : Fli := { Fli.start with
      genset := ⟨some .off, none, none⟩, breaker := ⟨none, none, some .on⟩ }
    (x.dev .genset).pulse = some .off ∧ (Sense.off ≠ .on) ∧ (x.dev .breaker).pulse = none ∧
      (x.dev .breaker).confirm = some .on ∧ (x.dev .breaker).confirm ≠ some .off ∧
      (x.dev (.feeder .f1)).pulse = none ∧ (x.dev (.feeder .f1)).confirm ≠ some .on := by decide

/-- Each output idle and active; the aux row of a state from step 9 of a start (R14, R17, R18). -/
theorem test_witness_CommandsToADevice_outputs :
    let row (p : Phase) : BitVec 6 := (deliver (.fli (.auxRow .prepare)) { on with phase := p }).1.fli.aux
    row .running = 5 ∧ row (.starting 9) = 5 ∧ row (.starting 8) = 0 ∧ row .off = 0 ∧
      (startStep 9 found (onCc { Cc.start with state := .hold })).fli.aux = 2 ∧
      on.alertOutput = false ∧ (onCc { Cc.start with noIncoming := true }).alertOutput = true ∧
      (onSc { Sc.start with recs := Quad.all { Feeder.start with failed := some .restore } }).alertOutput = true ∧
      (onDu { Du.start with state := .onbus, share := 900 }).shareOutput = 900 ∧
      { onDu { Du.start with share := 900 } with cfg := Cfg.blank }.shareOutput = 0 ∧
      ({ on with fli := { Fli.start with breaker := ⟨some .on, none, none⟩ } } : State).commandOutput .breaker .on := by
  decide +kernel

theorem test_witness_ConfirmLimitFailsTheCommand :
    let s : State := { on with fli := { Fli.start with breaker := ⟨none, none, some .on⟩ } }
    let c : Sc := { Sc.start with recs := ⟨{ Feeder.start with inFlight := some .fon },
      { Feeder.start with inFlight := some .foffOverload }, { Feeder.start with inFlight := some .foffDeadBus },
      .start⟩ }
    s.isUp = true ∧ (s.fli.dev (.feeder .f1)).confirm = none ∧ (s.fli.dev .breaker).confirm = some .on ∧
      (c.recs.get .f1).inFlight = some .fon ∧ (c.recs.get .f2).inFlight = some .foffOverload ∧
      (c.recs.get .f3).inFlight = some .foffDeadBus := by decide

/-- A confirmed FON takes the feeder off the list and behind the others of its class; hand operations (Table 5-2). -/
theorem test_witness_ConfirmLimitFailsTheCommand_results :
    let c (r : Feeder) : Sc := { Sc.start with
      recs := ⟨r, .start, .start, .start⟩, shedList := [⟨.f1, .overload⟩, ⟨.f2, .deadBus⟩], rotVendor := [.f1, .f2] }
    let fon := (scConfirmed (c { Feeder.start with inFlight := some .fon }) .f1 .on).1
    let closed := (scUncommanded (c { Feeder.start with failed := some .restore }) .f1 true).1
    let open_ := (scUncommanded (c { Feeder.start with closed := true, failed := some .deadBus }) .f1 false).1
    fon.shedList = [⟨.f2, .deadBus⟩] ∧ fon.rotation .vendor = [.f2, .f1] ∧ closed.shedList = [⟨.f2, .deadBus⟩] ∧
      closed.rotation .vendor = [.f2, .f1] ∧ open_.shedList = [⟨.f1, .deadBus⟩, ⟨.f2, .deadBus⟩] ∧
      open_.rotation .vendor = [.f1, .f2] ∧ (c .start).listed .f3 = false ∧
      (c { Feeder.start with inFlight := some .foffDeadBus }).listed .f1 = true := by decide

theorem test_peer_accepted : Accepts on peer ∧ FromStation peer := by unfold Accepts FromStation; decide

theorem test_terminal_accepted : Accepts on terminal ∧ FromTool terminal := by unfold Accepts FromTool; decide

theorem test_tool_commands : Commands on tool := by unfold Commands Accepts FromTool; decide

theorem test_witness_FramesAreTestedAndDispatched :
    frameCommand .ready peer [7, 1] = some (.readyReceived peer [7, 1]) ∧ on.isUp = true ∧ on.lc.enabled = true ∧
      on.lc.rx.readsBack 7 5 = false ∧ on.lc.rx.own = false ∧ (Rx.begun true).readsBack 7 5 = true ∧
      ({ Rx.begun true with whole := true }).readsBack 5 5 = true ∧
      ({ Rx.begun true with whole := true }).readsBack 7 5 = false ∧ addressed on ⟨7, 3, 0⟩ = false ∧ addressed on ⟨5, 4, 0⟩ = true ∧
      (⟨5, 4, 0⟩ : Header).sender.toNat = on.cfg.station ∧
      (onLc { Lc.start with enabled := true, duplicate := true }).lc.duplicate = true ∧
      Kind.stationKind .ready = true ∧ Kind.fixedLength .ready = some [(7 : Byte), 1].length ∧
      Kind.fixedLength .ready = some 2 ∧ [(7 : Byte)].length ≠ 2 := by decide

theorem test_station_kinds_from_other_senders :
    Accepts on ⟨28, 4, 0⟩ ∧ ¬ FromStation ⟨28, 4, 0⟩ ∧ Accepts on ⟨7, 0, 0⟩ ∧ ¬ FromStation ⟨7, 0, 0⟩ := by
  unfold Accepts FromStation; decide

theorem test_witness_BadFramesAreDiscarded :
    let bits (l : List Byte) : List Bool := l.flatMap sentBits
    let got (l : List Byte) : List Byte := (receiveChars (bits l)).map (·.1)
    on.isUp = true ∧ on.lc.enabled = true ∧ on.lc.sending = false ∧ Lc.start.rx.waitGap = true ∧
      on.lc.rx.waitGap = false ∧ (receiveChars ((bits [0xC3]).set 9 false)).map (·.2) = [true] ∧
      (List.replicate 48 (0 : Byte)).length ≤ 48 ∧ 56 < (got (List.replicate 57 0xC3)).length ∧
      (got (List.replicate 7 0xC3)).length < 8 ∧ byteAt (got [0xC2]) 0 ≠ 0xC3 ∧
      48 < (byteAt (got [0xC3, 0, 0, 0, 0, 49, 0, 0]) 5).toNat ∧
      (got [0xC3, 7, 4, 0, 0x33, 1, 0, 0]).length ≠ 8 + (byteAt (got [0xC3, 7, 4, 0, 0x33, 1, 0, 0]) 5).toNat ∧
      (crc (List.take 6 [0xC3, 7, 4, 0, 0x33, 0, 0, 0])).toNat ≠ fieldAt [0xC3, 7, 4, 0, 0x33, 0, 0, 0] 6 2 ∧
      frameCommand .ready peer [7, 1] = some (.readyReceived peer [7, 1]) := by
  decide +kernel

/-- The own characters of a frame sent whole are read back and set no DUPLICATE; the same characters after them do. -/
theorem test_own_frame_read_back :
    let f : TxFrame := groupFrame cell .state 0 []
    let bits (n : Nat) : List Bool := (f.characters n).flatMap sentBits
    let sending : State := onLc { on.lc with sending := true, rx := Rx.begun true, queue := [f] }
    let sent := after .frameSent sending
    let once := after (.frameDiscarded ((bits 5).take 12) ((bits 5).drop 12)) sent
    let other := after (.frameDiscarded (bits 7) []) sent
    once.lc.duplicate = false ∧ once.lc.rx.own = false ∧ other.lc.rx.own = false ∧
      (after (.frameDiscarded (bits 5) []) once).lc.duplicate = true ∧ sending.drivenBits = bits 5 := by decide +kernel

/-- A character of the frame under transmission read back right, with another value, with a wrong parity bit, and with its
stop bit at the start level; and one past the frame's end (R162, R169). -/
theorem test_mismatches :
    let f : TxFrame := groupFrame cell .state 0 []
    let s : State := onLc { on.lc with sending := true, rx := Rx.begun true, queue := [{ f with attempts := 1 }] }
    let read (place : Nat) (bits : List Bool) : Bool := (after (.collision place bits) s).lc.sending
    s.mismatch 0 (sentBits 0xC3) = false ∧ s.mismatch 0 ((sentBits 0xC3).take 11) = false ∧
      s.mismatch 0 (sentBits 0xC2) = true ∧ s.mismatch 0 [] = true ∧ s.mismatch 7 [] = true ∧
      s.mismatch 8 [] = false ∧ on.mismatch 0 [] = false ∧ read 0 (sentBits 0xC3) = true ∧
      (after .collision s).lc.sending = false ∧
      read 0 ((sentBits 0xC3).set 9 false) = false ∧ read 1 ((sentBits 5).set 10 false) = false := by decide +kernel

theorem test_witness_ToolCommandsAreJudged :
    Accepts on ⟨28, 0, 0⟩ ∧ (⟨28, 0, 0⟩ : Header).dest.toNat ≠ on.cfg.station ∧
      Accepts on ⟨27, 0, 5⟩ ∧ (⟨27, 0, 5⟩ : Header).dest.toNat = on.cfg.station ∧ ¬ FromTool ⟨27, 0, 5⟩ ∧
      [(1 : Byte)].length ≠ SubKind.paramLength .timeSet ∧ [(0 : Byte), 0, 0, 1].length = SubKind.paramLength .timeSet ∧
      SubKind.altering .timeSet = true ∧ (onInputs { Levels.inactive with lock := true }).fli.inputs.lock = true ∧
      SubKind.ofByte? 0 = none ∧ SubKind.ofByte? 11 = none ∧ SubKind.ofByte? 1 = some .accountQuery ∧
      SubKind.ofByte? 10 = some .restart := by
  unfold Accepts FromTool; decide

theorem test_locked_tool_commands :
    Commands { on with fli := { Fli.start with inputs := { Levels.inactive with lock := true } } } tool := by
  unfold Commands Accepts FromTool; decide

/-- Codes 0, 1, 4,095 and 4,096; a free slot is no slot of code 1. -/
theorem test_witness_QueriesAreAnswered :
    beNat [0, 0] < 1 ∧ 4095 < beNat [0x10, 0] ∧ 1 ≤ beNat [0, 1] ∧ beNat [0x0F, 0xFF] ≤ 4095 ∧
      on.bu.slots.find? (·.tenant == beNat [0, 1]) = none ∧
      ({ on with bu := { on.bu with slots := [{ Slot.free with tenant := 1 }] } } : State).bu.slots.find?
        (·.tenant == beNat [0, 1]) = some { Slot.free with tenant := 1 } ∧
      (∀ e ∈ ([] : List JournalEntry), e.number < 3) := by decide

theorem test_witness_RestartIsAnswered :
    on.fli.inputs.lock = false ∧ on.lc.duplicate = false ∧ on.lc.queue.length < 8 ∧
      8 ≤ (List.replicate 8 (groupFrame cell .cost 0 [])).length := by decide

/-! #### Peer view and clock -/

theorem test_witness_HeartbeatsSendState :
    on.isUp = true ∧ on.pt.heartbeat = none ∧
      ({ on with pt := { Pt.start with heartbeat := some 1000 } } : State).pt.heartbeat.isSome = true := by decide

/-- An early STATE from step 8 of a start on, and none before (R21, R22). -/
theorem test_witness_HeartbeatsSendState_early :
    let queue (p : Phase) : Nat := (deliver (.pt .reportable) { on with phase := p }).2.length
    queue .running = 1 ∧ queue (.starting 8) = 1 ∧ queue (.starting 7) = 0 ∧ queue .off = 0 ∧
      (after .startTimerExpiry (onDu { Du.start with state := .warming, startTimer := some 120000 })).lc.queue.length =
        1 := by decide +kernel

theorem test_witness_StateFramesCarryTheOwnersValues :
    500 ≤ on.cfg.heartbeat ∧ on.cfg.heartbeat ≤ 2000 ∧ on.cfg.heartbeat % 100 = 0 ∧ 10 ≤ on.cfg.rating ∧
      on.cfg.rating ≤ 2000 ∧ on.pcu.se.figure ≤ 65535 ∧ on.du.share ≤ 1250 ∧ on.fu.hours ≤ 9999 ∧
      on.cc.partner ≤ 27 ∧ on.sc.summary.cls ≠ some .protectedClass ∧ on.sc.summary.count ≤ 4 ∧
      on.pt.clock < 4294967296 ∧ on.cfg.setFitted = true ∧ State.reset.cfg.setFitted = false := by decide

/-- A STATE payload of station 7. -/
def statePayload7 : List Byte := statePayload { on with cfg := { cell with station := 7 } }

theorem test_witness_StateFramesEnterThePeerTable :
    peer.group ≠ 0 ∧ statePayload7.length = 44 ∧ fieldAt statePayload7 0 1 = peer.sender.toNat ∧
      fieldAt statePayload7 1 1 = peer.group.toNat ∧ on.pt.find 7 = none ∧ on.pt.entries.length < 15 ∧
      15 ≤ (List.replicate 15 (⟨9, PeerFields.ofPayload statePayload7, 3200⟩ : PeerEntry)).length ∧
      ((after (.stateReceived peer statePayload7) on).pt.find 7).isSome = true := by decide +kernel

/-- The clock field: valid at the floor, 2 s ahead, 1 s ahead. -/
theorem test_witness_StateFramesSetTheClock :
    let p (v : Nat) : List Byte :=
      statePayload { on with cfg := { cell with station := 7 }, pt := { Pt.start with clock := v, clockValid := true } }
    let clockAfter (v : Nat) (s : State) : Nat := (after (.stateReceived peer (p v)) s).pt.clock
    let s : State := { on with pt := { Pt.start with clock := 100, clockValid := true } }
    fieldAt (p 102) 23 4 = 102 ∧ fieldAt (p 102) 27 1 ≠ 0 ∧ fieldAt statePayload7 27 1 = 0 ∧
      clockAfter 102 s = 102 ∧ clockAfter 101 s = 100 ∧
      clockAfter 50 { on with pt := { Pt.start with floor := 50 } } = 50 ∧
      clockAfter 49 { on with pt := { Pt.start with floor := 50, clock := 50 } } = 50 := by decide +kernel

theorem test_witness_SilentPeersAreRemoved :
    on.isUp = true ∧ on.pt.find 7 = none ∧
      ((after (.stateReceived peer statePayload7) on).pt.find 7).isSome = true ∧
      (after (.peerAgeExpiry 7) (after (.stateReceived peer statePayload7) on)).pt.find 7 = none := by decide +kernel

theorem test_witness_SecondsStepTheClock :
    let s (v : Nat) : State := { on with pt := { Pt.start with clock := v, clockValid := true, second := some 1000 } }
    on.isUp = true ∧ on.phase = .running ∧ on.pt.clockValid = false ∧ (s 4294967294).pt.clock < 4294967295 ∧
      4294967295 ≤ (s 4294967295).pt.clock ∧ (s 0).pt.second.isSome = true := by decide

theorem test_witness_TimeSetIsJudged :
    let s : State := { on with pt := { Pt.start with clock := 100, clockValid := true, floor := 90 } }
    beNat [0, 0, 0, 99] < s.pt.clock ∧ beNat [0, 0, 0, 100] = s.pt.clock ∧ s.pt.clock < beNat [0, 0, 0, 101] ∧
      on.pt.clockValid = false ∧ on.pt.floor ≤ beNat [0, 0, 0, 0] ∧
      ({ on with pt := { Pt.start with floor := 1 } } : State).pt.floor > beNat [0, 0, 0, 0] := by decide

theorem test_witness_ValidClocksNeverDecrease :
    let s : State := { on with pt := { Pt.start with clock := 100, clockValid := true, floor := 100 } }
    Instr.startsOrStops .secondTimerExpiry = false ∧ s.pt.clockValid = true ∧ s.pt.floor ≤ s.pt.clock ∧
      ∃ t, exec .secondTimerExpiry s = .next t := ⟨rfl, rfl, by decide, _, rfl⟩

/-! #### The set -/

theorem test_witness_SetFollowsItsLines :
    let st (x : SetState) : State := onDu { Du.start with state := x }
    (st .cranking).du.state = .cranking ∧ (st .cranking).fli.inputs.ready = false ∧
      (onInputs { Levels.inactive with ready := true }).fli.inputs.ready = true ∧ (st .warming).du.breaker = false ∧
      (st .cooling).du.state = .cooling ∧ (st .rampdown).du.state = .rampdown ∧ (st .fault).fli.inputs.fault = false ∧
      (st .fault).fli.inputs.running = false ∧ (st .fault).du.breaker = false := by decide

/-- Entry to FAULT with the breaker closed and with it open, and FAULT left as RUNNING goes inactive (R42, R43). -/
theorem test_witness_SetFollowsItsLines_fault :
    let st (x : SetState) (b : Bool) : State := onDu { Du.start with state := x, breaker := b }
    let told (m : DuMsg) (s : State) : List Report := (deliver (.du m) s).2
    let moved (x : SetState) : List Report := moveReports x .fault
    told (.faultInput true) (st .onbus true) = .fli (.command .breaker .off) :: moved .onbus ∧
      told (.faultInput true) (st .ready false) = moved .ready ∧
      told (.failed .off) (st .onbus true) = moved .onbus ++ [.cc .tripFail] ∧
      told (.failed .on) { st .ready false with fli := { Fli.start with inputs := { Levels.inactive with running := true } } } =
        .fli (.command .genset .off) :: moved .ready ∧
      (deliver (.du (.running false)) (st .fault false)).1.du.state = .stopped ∧
      (deliver (.du (.running false)) (st .fault true)).1.du.state = .fault ∧ (st .fault false).du.heldStart = none := by
  decide +kernel

theorem test_witness_StartFailureFaultsTheSet :
    on.isUp = true ∧ on.du.startTimer = none ∧
      (onDu { Du.start with state := .warming, startTimer := some 120000 }).du.startTimer.isSome = true ∧
      (onDu { Du.start with state := .fault }).du.state = .fault := by decide

/-- A start request in COOLING before STOP, and held after it until STOPPED (R38). -/
theorem test_witness_StartFailureFaultsTheSet_requests :
    let cooling : Du := { Du.start with state := .cooling, join := some .byClaim }
    let led (m : DuMsg) (d : Du) : Du := (deliver (.du m) (onDu d)).1.du
    let kept := led .reqStart cooling
    (led .reqStart { cooling with cooldown := some 300000 }).state = .warming ∧ kept.state = .cooling ∧
      kept.heldStart = some .call ∧ (led (.running false) kept).state = .stopped ∧
      (led .takeHeld (led (.running false) kept)).state = .cranking ∧
      (led .takeHeld (led (.running false) kept)).origin = some .call ∧
      (led .reqStart { Du.start with state := .ready, origin := some .hand }).origin = some .call ∧
      (led .reqStart { Du.start with state := .warming, origin := some .dispatch }).origin = some .dispatch ∧
      led .reqStart { Du.start with state := .rampdown } = { Du.start with state := .rampdown } := by decide +kernel

theorem test_witness_StopsAreRepeated :
    on.isUp = true ∧ on.du.cooldown = none ∧ on.fli.inputs.running = false ∧
      (onDu { Du.start with state := .cooling, cooldown := some 300000 }).du.cooldown.isSome = true ∧
      (onDu { Du.start with stopRepeat := some 30000 }).du.stopRepeat.isSome = true ∧
      (onInputs { Levels.inactive with running := true }).fli.inputs.running = true := by decide

/-- The CC's stop request in each state, and with another origin (R44, R59, R81). -/
theorem test_witness_StopsAreRepeated_requests :
    let s (st : SetState) (o : Origin) (running : Bool) : State := { onDu { Du.start with state := st, origin := some o } with
      fli := { Fli.start with inputs := { Levels.inactive with running := running } } }
    let led (st : SetState) (o : Origin) (running : Bool) : Du := (deliver (.du .reqStop) (s st o running)).1.du
    (led .cranking .call false).state = .stopped ∧ (led .cranking .call true).state = .cooling ∧
      (led .warming .call true).stopRepeat = some 30000 ∧ (led .ready .hand true).state = .ready ∧
      (led .fault .call true).state = .fault ∧ (s .cooling .call true).du.cooldown = none := by decide +kernel

/-- A stop request in COOLING leaves a join request, and drops a held start with it (R38, R44). -/
theorem test_stop_request_in_cooling :
    let d : Du := { Du.start with state := .cooling, origin := some .call, join := some .byClaim }
    let led (d : Du) : Du := (deliver (.du .reqStop) (onDu d)).1.du
    led d = d ∧ led { d with heldStart := some .call } = { d with join := none } := by decide +kernel

theorem test_witness_SharesAndRamps :
    0 < ({ Figures.zero with capacity := 1, load := 2 } : Figures).capacity ∧
      shareOf { Figures.zero with capacity := 1, load := 2 } = 1250 ∧ on.isUp = true ∧
      (onDu { Du.start with state := .rampdown, ramp := some 60000 }).du.tripIssued = false ∧
      (onDu { Du.start with state := .rampdown, ramp := some 60000 }).du.ramp.isSome = true ∧
      on.du.state ≠ .rampdown := by decide

/-- S computed once the first SE window is over, the trip of a low output, the ramp left (R45 to R48). -/
theorem test_witness_SharesAndRamps_acts :
    let s (d : Du) (f : Figures) (kw : Nat) : State := { onDu d with
      pt := { Pt.start with figs := f }, pcu := { Pcu.start with se := { Chan.start with figure := kw } } }
    let f : Figures := { Figures.zero with capacity := 1000, load := 500, carrying := 1 }
    let led (m : DuMsg) (d : Du) (f : Figures) (kw : Nat) : Du := (deliver (.du m) (s d f kw)).1.du
    let down : Du := { Du.start with state := .rampdown, ramp := some 60000 }
    (led (.figures true) { Du.start with state := .onbus, shareArmed := true } f 0).share = 500 ∧
      (led (.figures true) { Du.start with state := .onbus } f 0).share = 0 ∧
      (led .seWindow { Du.start with state := .onbus } f 0).share = 500 ∧
      (led .seWindow down f 25).tripIssued = true ∧ (led .seWindow down f 26).tripIssued = false ∧
      (led (.figures false) down { f with carrying := 0 } 26).state = .onbus ∧
      (led (.figures false) down f 26).state = .rampdown ∧ (led .reqResume down f 26).state = .onbus ∧
      (led .reqResume { down with tripIssued := true } f 26).state = .rampdown ∧
      (led .reqRamp { Du.start with state := .onbus } f 26).ramp = some 60000 ∧
      (led .reqRamp { Du.start with state := .onbus } f 25).tripIssued = true ∧
      (deliver (.du .reqRamp) (s .start f 25)).2 = [.cc .rampRefused] ∧
      (deliver (.du .reqTrip) (s { Du.start with state := .onbus } f 25)).2 = [.fli (.command .breaker .off)] ∧
      (deliver (.du .reqTrip) (s .start f 25)).2 = [] := by decide +kernel

/-- The figures over two peers, one releasing, and a change of an own value handed on. -/
theorem test_witness_SharesAndRamps_figures :
    let f : PeerFields := { PeerFields.ofPayload statePayload7 with
      setFitted := true, onBus := true, setState := .onbus, rating := 300, output := 200, shedClass := some .vendor }
    let l : List PeerEntry := [⟨7, f, 3200⟩, ⟨8, { f with setState := .rampdown, output := 50, shedClass := none }, 3200⟩]
    let s : State := { on with pt := { Pt.start with entries := l, figs := figuresOf on l } }
    figuresOf on l = { figuresOf on [] with
        capacity := 300, load := 250, releasing := 50, carrying := 1, peersOnBus := 2, lowestShed := some .vendor } ∧
      s.pt.figs = figuresOf s s.pt.entries ∧ on.pt.figs.capacity ≠ (figuresOf on l).capacity ∧
      (figuresOf { on with fli := { Fli.start with inputs := { Levels.inactive with showSwitch := true } } } l).showActive =
        true ∧ (figuresOf (onCc { Cc.start with state := .hold }) l).handoverInGroup = true := by decide +kernel

theorem test_witness_StartContests :
    let s (d : Du) : State := onDu { d with startDwell := .running 30000 }
    let ready : Du := { Du.start with state := .ready }
    ownEligible (s .start).du (s .start) = true ∧ startPlace (s .start).du (s .start) = 1 ∧
      (s .start).lc.duplicate = false ∧ (s .start).du.startDwell = .running 30000 ∧
      ownEligible (s ready).du (s ready) = true ∧ startPlace (s ready).du (s ready) = 1 ∧
      (s ready).fli.closing = false ∧ (s ready).fli.inputs.busLive = false ∧ (s ready).du.claimHold = none ∧
      (∀ ms, on.du.startDwell ≠ .running ms) ∧
      (onInputs { Levels.inactive with busLive := true }).fli.inputs.busLive = true ∧
      ownEligible { Du.start with state := .fault } on = false := by
  refine ⟨by decide, by decide, by decide, by decide, by decide, by decide, by decide, by decide, by decide, ?_,
    by decide, by decide⟩
  intro ms; simp [on, State.reset, Du.start]

/-- A need at and beyond its limit, a dwell started, held and going on. -/
theorem test_witness_StartContests_dwell :
    let s (load : Nat) (d : Dwell) (st : SetState) : State :=
      { onDu { Du.start with state := st, startDwell := d } with
        pt := { Pt.start with figs := { Figures.zero with capacity := 1000, load := load } } }
    let dwell (x : State) : Dwell := (deliver (.du .test) x).1.du.startDwell
    dwell (s 800 (.running 30000) .ready) = .off ∧ dwell (s 801 .off .ready) = .running 30000 ∧
      dwell (s 801 .off .warming) = .held 30000 ∧ dwell (s 801 (.held 30000) .ready) = .running 30000 ∧
      dwell (s 801 (.running 30000) .cranking) = .held 30000 ∧ (s 801 .off .ready).isRunning = true ∧
      State.reset.isRunning = false := by decide +kernel

/-- A set the intent started is stopped: STOPPED from CRANKING, COOLING from WARMING (R44, R53). -/
theorem test_start_intent_withdrawn :
    let s (st : SetState) : State := onDu { Du.start with
      state := st, origin := some .dispatch, startIntent := some ⟨false, 9999⟩, join := some .byClaim }
    let led (st : SetState) : Du := (after (.startIntentReceived peer [1, 0x27, 0x0F]) (s st)).du
    (led .cranking).state = .stopped ∧ (led .cranking).join = none ∧ (led .cranking).startIntent = none ∧
      (led .warming).state = .cooling ∧ (led .warming).stopRepeat = some 30000 := by decide +kernel

/-- A rival of the same hours: the lower station is ahead. -/
theorem test_start_intents_compared :
    startAhead (keysOf [0, 0x27, 0x0F]) 4 ⟨false, 9999⟩ 5 = true ∧
      startAhead (keysOf [0, 0x27, 0x0F]) 6 ⟨false, 9999⟩ 5 = false ∧
      startAhead (keysOf [1, 0, 0]) 27 ⟨false, 9999⟩ 5 = true ∧ Instr.wellFormed (.startIntentReceived peer [0, 0, 0]) ∧
      [(0 : Byte), 0x27, 0x0F].length = 3 := by decide

theorem test_witness_StopContests :
    let figs : Figures := { Figures.zero with capacity := 1000, load := 199, carrying := 2 }
    let s : State := { onDu { Du.start with state := .onbus, breaker := true, stopDwell := .running 120000 } with
      pt := { Pt.start with figs := figs } }
    let held : State := onDu { Du.start with state := .onbus, stopIntent := some 9999, intentHold := some 3000 }
    on.isUp = true ∧ s.lc.duplicate = false ∧ s.du.state = .onbus ∧ firstToStop s = true ∧ firstToStop on = false ∧
      held.du.intentHold.isSome = true ∧ held.pt.figs.carrying < 2 ∧ 2 ≤ s.pt.figs.carrying ∧
      20 * s.pcu.se.figure ≤ s.cfg.rating ∧
      s.cfg.rating < 20 * ({ on with pcu := { Pcu.start with se := ⟨none, 0, 0, 0, 0, 26⟩ } } : State).pcu.se.figure ∧
      stopAhead (fieldAt [0x27, 0x0F] 0 2) 7 9999 5 = true ∧ stopAhead (fieldAt [0x27, 0x0F] 0 2) 4 9999 5 = false := by
  decide

/-- The stop need at its limit, held while a set releases. -/
theorem test_witness_StopContests_dwell :
    let s (load releasing : Nat) (d : Dwell) : State :=
      { onDu { Du.start with state := .onbus, breaker := true, stopDwell := d } with
        pt := { Pt.start with figs := { Figures.zero with
          capacity := 1000, load := load, releasing := releasing, carrying := 2 } } }
    let dwell (x : State) : Dwell := (deliver (.du .test) x).1.du.stopDwell
    dwell (s 200 0 (.running 120000)) = .off ∧ dwell (s 199 0 .off) = .running 120000 ∧
      dwell (s 199 1 .off) = .held 120000 ∧ dwell (s 199 0 (.held 120000)) = .running 120000 ∧
      dwell (s 199 1 (.running 120000)) = .held 120000 := by decide +kernel

theorem test_witness_DeadBusRecovery :
    let s : State := onDu { Du.start with deadBus := some 2000 }
    let rival : State := { s with pt := { Pt.start with entries := [⟨3, { PeerFields.ofPayload statePayload7 with
      setState := .ready }, 3200⟩] } }
    s.isUp = true ∧ s.du.deadBus.isSome = true ∧ ownEligible s.du s = true ∧ startPlace s.du s = 1 ∧
      startPlace rival.du rival = 2 ∧ ownEligible rival.du rival = true ∧
      ownEligible { Du.start with state := .fault } s = false ∧ on.du.deadBus = none ∧ on.du.escalation = none ∧
      (onDu { Du.start with state := .ready, escalation := some 20000 }).du.escalation.isSome = true ∧
      s.fli.closing = false ∧ s.fli.inputs.busLive = false ∧ s.du.claimHold = none ∧ s.lc.duplicate = false := by
  decide +kernel

/-- A recovery begun afresh, escalating, and overtaken by a peer shown on bus (R56, logs 31 and 55). -/
theorem test_witness_DeadBusRecovery_tests :
    let led (d : Du) (f : Figures) (l : List PeerEntry) : Du :=
      (deliver (.du .test) { onDu d with pt := { Pt.start with figs := f, entries := l } }).1.du
    let rival : PeerEntry := ⟨3, { PeerFields.ofPayload statePayload7 with setState := .ready }, 3200⟩
    let apart : Du := { Du.start with recovery := .noPart }
    let asked : Du := { Du.start with state := .ready, recovery := .requested, join := some .byClaim }
    let shown : Figures := { Figures.zero with peersOnBus := 1 }
    (led .start .zero []).deadBus = some 2000 ∧ (led apart .zero []).state = .cranking ∧
      (led apart .zero [rival]).escalation = some 20000 ∧ (led { apart with state := .cooling } .zero []).recovery = .noPart ∧
      (led { apart with state := .ready } .zero []).claim = some ⟨true, 9999⟩ ∧
      (led asked .zero []).join = some .byClaim ∧ (led asked shown []).join = some .bySync ∧
      (led asked shown []).recovery = .none ∧
      (led { asked with claimHold := some 500 } shown []).join = some .byClaim := by decide +kernel

theorem test_witness_ClaimsAndJoinFailures :
    let s : State := onDu { Du.start with
      state := .ready, join := some .byClaim, claim := some ⟨true, 9999⟩, claimHold := some 500
      claimWait := some 20000, joinTimer := some 60000, startIntent := some ⟨false, 9999⟩, origin := some .dispatch }
    s.isUp = true ∧ on.du.claimHold = none ∧ s.du.claimHold.isSome = true ∧ s.du.claim = some ⟨true, 9999⟩ ∧
      startAhead (keysOf [1, 0x27, 0x0F]) 4 ⟨true, 9999⟩ 5 = true ∧
      startAhead (keysOf [1, 0x27, 0x0F]) 7 ⟨true, 9999⟩ 5 = false ∧ s.du.claimWait.isSome = true ∧
      s.du.join.isSome = true ∧ s.fli.inputs.busLive = false ∧ s.lc.duplicate = false ∧
      s.du.joinTimer.isSome = true ∧ s.du.origin = some .dispatch ∧ on.du.startIntent = none := by decide

/-- The wait of a lost claim ends with the set READY, and with it WARMING: the claim comes now, or with READY (R58). -/
theorem test_witness_ClaimsAndJoinFailures_wait :
    let s (st : SetState) : State := onDu { Du.start with
      state := st, join := some .bySync, claimWait := some 20000, rival := some 7 }
    let done (st : SetState) : State := after .claimWaitExpiry (s st)
    (done .ready).du.claimHold = some 500 ∧ (done .warming).du.claimHold = none ∧
      (done .warming).du.join = some .byClaim ∧
      (deliver (.du .tryJoin) (onDu { (done .warming).du with state := .ready })).1.du.claimHold = some 500 := by
  decide +kernel

/-- Join requests and the change of their mode, SYNC OK, the loss of a rival, DUPLICATE (R49, R57 to R60). -/
theorem test_witness_ClaimsAndJoinFailures_joins :
    let s (st : SetState) (j : Option JoinMode) (live sync : Bool) : State :=
      { onDu { Du.start with state := st, join := j } with
        fli := { Fli.start with inputs := { Levels.inactive with busLive := live, syncOk := sync } } }
    let close : Report := .fli (.command .breaker .on)
    let lost : Du := { Du.start with state := .ready, join := some .bySync, rival := some 7, claimWait := some 20000 }
    (deliver (.du .reqJoin) (s .ready none true true)).2 = [close] ∧
      (deliver (.du .reqJoin) (s .ready none true false)).1.du.joinTimer = some 60000 ∧
      (deliver (.du .reqJoin) (s .ready none false false)).1.du.claimHold = some 500 ∧
      (deliver (.du .reqJoin) (s .warming none false false)).1.du.join = some .byClaim ∧
      deliver (.du .reqJoin) (s .onbus none true true) = (s .onbus none true true, []) ∧
      (deliver (.du (.busLive true)) (s .ready (some .byClaim) true true)).2 = [close, .du .test] ∧
      (deliver (.du (.busLive false)) (s .warming (some .bySync) false true)).1.du.join = some .byClaim ∧
      (deliver (.du (.syncOk true)) (s .ready (some .bySync) true true)).2 = [close] ∧
      (deliver (.du (.peerLost 7)) (onDu lost)).1.du.claimHold = some 500 ∧
      (deliver (.du (.peerLost 8)) (onDu lost)).1.du = lost ∧
      (deliver (.du (.peerLost 7)) (onDu { lost with state := .warming })).1.du.join = some .byClaim ∧
      (deliver (.du .duplicate) (onDu { Du.start with claimHold := some 500, escalation := some 20000 })).1.du =
        Du.start ∧ (s .ready none true true).fli.closing = false ∧
      ({ on with fli := { Fli.start with breaker := ⟨none, none, some .on⟩ } } : State).fli.closing = true := by
  decide +kernel

/-- The CC's stop request drops a start held in COOLING whatever the set's own origin (R38). -/
theorem test_stop_request_drops_a_held_start :
    (deliver (.du .reqStop) (onDu { Du.start with
      state := .cooling, stopRepeat := some 30000, origin := some .dispatch, heldStart := some .call
      join := some .byClaim })).1.du =
      { Du.start with state := .cooling, stopRepeat := some 30000, origin := some .dispatch } := by decide

/-- A failed TRIP is told to the CC in FAULT too (R77), and no STATE goes out for a position that stays (R22). -/
theorem test_trip_fail_in_fault :
    (deliver (.du (.failed .off)) { onDu { Du.start with state := .fault, breaker := true } with
      fli := { Fli.start with inputs := { Levels.inactive with brk := true } } }).2 = [.cc .tripFail] := by decide

/-! #### Changeover -/

/-- The station's call 1 to station 7, and a call 1 of station 7 to it. -/
def calling (st : Handover) (m : Mode) : Cc :=
  { Cc.start with
    state := st, call := some ⟨1, .scheduled, 0, [], some 7, some m, false, none, false, false⟩, offerWindow := some 3000
    retryWait := some 30000, prepLimit := some 160000, gapLimit := some 10000, endWait := some 10000 }

def called (st : Handover) (m : Mode) : Cc :=
  { Cc.start with
    state := st, inc := some ⟨7, 1, some m, true, true⟩, offerTimer := some 5000, prepTimeout := some 150000
    gapLimit := some 10000, endWait := some 10000 }

theorem test_witness_HandoverToolCommands :
    let s : State := onDu { Du.start with state := .onbus }
    on.fli.inputs.lock = false ∧ s.cfg.setFitted = true ∧ s.cc.state = .idle ∧ s.du.state = .onbus ∧
      s.lc.duplicate = false ∧ s.pt.figs.showActive = false ∧
      ({ Figures.zero with showActive := true } : Figures).showActive = true ∧ on.du.state ≠ .onbus ∧
      on.cc.call = none ∧ (calling .hold .open').call.isSome = true ∧ (calling .prepare .open').state = .prepare := by
  decide

/-- The pending fuel cause made, kept, taken and withdrawn (R63, R64). -/
theorem test_witness_HandoverToolCommands_cause :
    let s (c : Cc) (show_ : Bool) : State := { onCc c with
      du := { Du.start with state := .onbus }, pt := { Pt.start with figs := { Figures.zero with showActive := show_ } } }
    let told (c : Cc) (show_ : Bool) (b a : Threshold) : Cc := (deliver (.cc (.threshold b a)) (s c show_)).1.cc
    let fuel (st : Handover) : Cc := { calling st .open' with
      call := (calling st .open').call.map fun r => { r with cause := .fuelLow } }
    (told Cc.start false .normal .low).state = .call ∧ (told Cc.start true .normal .low).state = .hold ∧
      (told Cc.start true .low .critical).state = .call ∧ (told (fuel .hold) false .low .normal).state = .idle ∧
      (told (fuel .hold) true .low .critical).state = .call ∧ (told (fuel .release) true .low .critical).pending =
        some .fuelCritical ∧ (told (called .offered .open') false .normal .low).state = .idle ∧
      ((told (fuel .prepare) false .low .critical).call.map (·.cause)) = some .fuelCritical := by decide +kernel

/-- A pending cause served from IDLE with the set ONBUS, deferred by a show, and left with the set off the bus (R64). -/
theorem test_witness_HandoverToolCommands_served :
    let s (p : Cause) (st : SetState) (show_ : Bool) : State := { onCc { Cc.start with pending := some p } with
      du := { Du.start with state := st }, pt := { Pt.start with figs := { Figures.zero with showActive := show_ } } }
    let led (x : State) : Cc := (deliver (.cc .serve) x).1.cc
    (led (s .fuelLow .onbus false)).state = .call ∧ (led (s .fuelLow .onbus true)).state = .hold ∧
      (led (s .fuelCritical .onbus true)).state = .call ∧ (led (s .fuelLow .ready false)).pending = some .fuelLow ∧
      (led (s .fuelLow .onbus false)).pending = none ∧ (s .fuelLow .onbus false).cc.call = none ∧
      (s .fuelLow .onbus false).cc.inc = none := by decide +kernel

theorem test_witness_CallsOffersPicks :
    let s : State := onCc (calling .call .open')
    on.cc.state = .idle ∧ on.lc.duplicate = false ∧ on.cfg.setFitted = true ∧ on.du.state ≠ .fault ∧
      on.du.breaker = false ∧ on.fu.threshold = .normal ∧ fieldAt [1, 1, 1, 0xF4, 1, 7] 2 2 ≤ on.cfg.rating ∧
      on.du.startIntent = none ∧ on.cfg.rating < fieldAt [1, 1, 1, 0xF5, 1, 7] 2 2 ∧ s.isUp = true ∧
      s.cc.state = .call ∧ s.cc.offerWindow.isSome = true ∧ s.cc.retryWait.isSome = true ∧
      fieldAt [5, 1, 0x27, 0x0F, 0, 1, 0xF4, 1] 0 1 = s.cfg.station ∧ fieldAt [5, 1, 0x27, 0x0F, 0, 1, 0xF4, 1] 1 1 = 1 ∧
      (onCc (called .offered .open')).cc.state = .offered ∧
      (onCc (called .offered .open')).cc.offerTimer.isSome = true ∧ on.cc.call = none := by decide

/-- Nine offers: the last in rank is dropped. -/
theorem test_nine_offers :
    (([1, 2, 3, 4, 6, 7, 8, 9, 10].foldl (fun l n => enterOffer l ⟨n, 100 * n, n == 3, 500, true⟩) []).map
      (·.station)) = [3, 10, 9, 8, 7, 6, 4, 2] := by decide

theorem test_witness_Preparation :
    let s : State := onCc (calling .prepare .open')
    (called .offered .open').inc = some ⟨7, 1, some .open', true, true⟩ ∧ fieldAt [7, 1, 5, 1] 0 1 = 7 ∧
      fieldAt [7, 1, 5, 1] 1 1 = 1 ∧ fieldAt [7, 1, 5, 1] 2 1 = on.cfg.station ∧
      fieldAt [7, 1, 6, 1] 2 1 ≠ on.cfg.station ∧ on.cc.inc = none ∧ on.cc.call = none ∧
      fieldAt [5, 1] 0 1 = s.cfg.station ∧ s.cc.state = .prepare ∧ s.pt.figs.showActive = false ∧
      s.cc.prepLimit.isSome = true ∧ (called .prepare .open').prepTimeout.isSome = true ∧
      (Cause.scheduled ≠ .fuelCritical) ∧ ((⟨1, .scheduled, 2, [], some 7, none, false, none, false, false⟩ : CallRec).attempts ≥ 2) := by
  decide

theorem test_witness_TransitionsAndEnds :
    fieldAt [5, 1, 1] 0 1 = on.cfg.station ∧ fieldAt [5, 1, 1] 1 1 = 1 ∧ byteAt [5, 1, 1] 2 = 1 ∧
      byteAt [7, 1, 2] 2 = 2 ∧ byteAt [7, 1, 3] 2 = 3 ∧ fieldAt [7, 1, 3] 0 1 = 7 ∧
      (calling .prepare .closed').call = 
        some ⟨1, .scheduled, 0, [], some peer.sender.toNat, some .closed', false, none, false, false⟩ ∧
      (calling .deadbus .open').state = .deadbus ∧ (called .prepare .open').call = none ∧
      (called .parallel .closed').inc = some ⟨peer.sender.toNat, 1, some .closed', true, true⟩ ∧
      (calling .deadbus .open').gapLimit.isSome = true ∧ (called .release .open').endWait.isSome = true ∧
      (∀ r, on.cc.call = some r → False) ∧ (∀ r, on.cc.inc = some r → False) := by
  refine ⟨by decide, by decide, by decide, by decide, by decide, by decide, by decide, by decide, by decide,
    by decide, by decide, by decide, ?_, ?_⟩ <;> · intro r h; simp [on, State.reset, Cc.start] at h

/-- An ABORT's reason is kept (R82); a set back ONBUS by hand leaves RELEASE at once, a trip awaited does not (R86). -/
theorem test_abort_in_deadbus :
    let s (left : Bool) : State := { onCc { calling .deadbus .open' with
        call := (calling .deadbus .open').call.map fun r => { r with leftBus := left } } with
      du := { Du.start with state := .onbus } }
    let t (left : Bool) : Cc := (after (.abortReceived peer [5, 1, 3]) (s left)).cc
    (t true).state = .idle ∧ (t false).state = .release ∧ (t false).abortReason = some 3 := by decide +kernel

/-- Table 4-7: a partner that names the own station, one that names none, and one in a state its row does not accept. -/
theorem test_witness_TransitionsAndEnds_partner :
    let f (ho : Handover) (partner : Nat) : PeerFields := { PeerFields.ofPayload statePayload7 with
      setFitted := true, handover := ho, partner := partner, setState := .ready, onBus := true }
    let s (c : Cc) (ho : Handover) (partner : Nat) : State := { onCc c with
      pt := { Pt.start with entries := [⟨7, f ho partner, 3200⟩] } }
    let shown (c : Cc) (ho : Handover) (partner : Nat) : Cc := (deliver (.cc (.partnerState 7)) (s c ho partner)).1.cc
    (shown (called .offered .open') .call 5).state = .offered ∧ (shown (called .offered .open') .call 0).state = .idle ∧
      (shown (called .prepare .open') .deadbus 5).state = .deadbus ∧
      (shown (called .prepare .closed') .deadbus 5).state = .prepare ∧
      (shown (called .parallel .closed') .release 5).state = .release ∧
      (shown (called .release .closed') .idle 5).state = .idle ∧
      (shown (calling .prepare .closed') .parallel 5).state = .parallel ∧
      ((shown (calling .prepare .closed') .prepare 5).call.map (·.noted)) = some true ∧
      (shown (calling .prepare .open') .prepare 5).state = .deadbus ∧
      (shown (calling .prepare .open') .idle 5).state = .call ∧
      (shown (calling .parallel .closed') .idle 5).state = .idle ∧
      (shown (calling .deadbus .open') .release 5).state = .release ∧
      (s (called .offered .open') .call 5).cc.partner = 7 ∧ (s Cc.start .call 5).pt.find 7 = some ⟨7, f .call 5, 3200⟩ := by
  decide +kernel

/-- Shows put a call in HOLD and let it go on (R80). -/
theorem test_witness_HandoverToolCommands_shows :
    let led (c : Cc) (b : Bool) : Cc := (deliver (.cc (.showActive b)) (onCc c)).1.cc
    let critical (c : Cc) : Cc := { c with call := c.call.map fun r => { r with cause := .fuelCritical } }
    (led (calling .hold .open') false).state = .call ∧ (led (calling .call .open') true).state = .hold ∧
      (led (calling .prepare .open') true).state = .hold ∧ (led (calling .prepare .closed') true).state = .prepare ∧
      (led (critical (calling .call .open')) true).state = .call ∧ on.cc.call = none ∧
      (deliver (.cc (.showActive true)) (onCc (calling .prepare .open'))).2.head? =
        some (refFrame on .hold 7 5 1 []) := by decide +kernel

/-- The incoming set in PREPARE, and its failures (R72). -/
theorem test_witness_Preparation_set :
    let c (m : Mode) (sent : Bool) : Cc := { called .prepare m with
      inc := some ⟨7, 1, some m, sent, sent⟩ }
    let s (x : SetState) (c : Cc) : State := { onCc c with du := { Du.start with state := x } }
    let given (m : CcMsg) (x : SetState) (c : Cc) : State × List Report := deliver (.cc m) (s x c)
    (given .checkReady .ready (c .closed' false)).2 = [refFrame on .ready 7 7 1 [], .du .reqJoin] ∧
      (given .checkReady .ready (c .open' false)).2 = [refFrame on .ready 7 7 1 []] ∧
      (given .checkReady .ready (c .open' true)).2 = [] ∧
      (given (.setChanged .ready .onbus) .onbus (c .closed' true)).1.cc.state = .parallel ∧
      (given (.setChanged .ready .onbus) .onbus (c .open' true)).1.cc.state = .prepare ∧
      (given (.setChanged .ready .fault) .fault (c .open' true)).1.cc.state = .idle ∧
      (given .startFail .stopped (c .open' true)).1.cc.state = .idle ∧
      (given .joinFail .ready (c .closed' true)).1.cc.state = .idle ∧
      (given .joinFail .ready (c .closed' false)).1.cc.state = .prepare ∧
      (given (.setChanged .ready .onbus) .onbus (called .offered .open')).1.cc.state = .idle ∧
      (c .open' true).call = none := by decide +kernel

/-- The own set of an outgoing and of an incoming station (R74 to R79, R84). -/
theorem test_witness_TransitionsAndEnds_set :
    let s (x : SetState) (c : Cc) : State := { onCc c with du := { Du.start with state := x } }
    let led (m : CcMsg) (x : SetState) (c : Cc) : Cc := (deliver (.cc m) (s x c)).1.cc
    let par := calling .parallel .closed'
    let dead : Cc := { called .deadbus .open' with inc := some ⟨7, 1, some .open', true, false⟩ }
    (led (.setChanged .onbus .fault) .fault (calling .call .open')).state = .idle ∧
      (led (.setChanged .onbus .rampdown) .rampdown par).state = .parallel ∧
      (led .checkSet .fault (calling .prepare .open')).state = .idle ∧
      (led (.tripIssued .forced) .rampdown par).call.map (·.outcome) = some (some .forced) ∧
      (led (.setChanged .rampdown .cooling) .cooling par).state = .release ∧
      (led (.setChanged .rampdown .fault) .fault par).state = .idle ∧
      (led .rampAbandoned .onbus par).partnerLost = true ∧ (led .rampRefused .fault par).state = .idle ∧
      (led .tripFail .fault (calling .deadbus .open')).state = .idle ∧
      ((led (.setChanged .onbus .cooling) .cooling (calling .deadbus .open')).call.map (·.leftBus)) = some true ∧
      (led (.setChanged .cooling .stopped) .stopped (calling .release .open')).state = .idle ∧
      (led .checkRelease .stopped (calling .release .open')).state = .idle ∧
      (led .checkRelease .onbus (calling .release .open')).state = .release ∧
      (led (.setChanged .onbus .cooling) .cooling (called .parallel .closed')).state = .idle ∧
      (led .checkDeadbus .ready dead).inc.map (·.joinAsked) = some true ∧
      (led .checkDeadbus .onbus dead).state = .release ∧
      (deliver (.cc .checkDeadbus) { s .ready dead with
        fli := { Fli.start with inputs := { Levels.inactive with busLive := true } } }).2 = [] := by decide +kernel

/-! #### Feeders -/

/-- Closed feeders 1 to 3 in their classes, in overload with the confirm window running. -/
def loaded : Sc :=
  { Sc.start with
    recs := Quad.all { Feeder.start with closed := true, lastKw := some 10 }
    rotAmenity := [.f1], rotVendor := [.f2], rotShow := [.f3], window := some 2000, overload := true
    settle := some 10000, spacing := some 6000 }

theorem test_witness_SheddingAndRestoration :
    let s : State := onSc loaded
    let shed : Sc := { Sc.start with shedList := [⟨.f1, .overload⟩] }
    s.phase = .running ∧ s.cfg.anyFeeder = true ∧ on.sc.window = none ∧ s.sc.window.isSome = true ∧
      s.sc.overload = true ∧ shedCandidate s.cfg.order s.sc = some (.amenity, .f1) ∧ peerLower s .amenity = false ∧
      shedCandidate on.cfg.order on.sc = none ∧ s.sc.settle.isSome = true ∧ s.sc.spacing.isSome = true ∧
      (FeederClass.amenity ∈ s.cfg.order.rising) ∧ (FeederId.f1 ∈ s.sc.rotation .amenity) ∧
      restoreCandidate cell shed = some .f1 ∧ (onSc shed).sc.fonInFlight = false ∧
      restoreCandidate cell on.sc = none ∧
      peerLower { s with pt := { Pt.start with figs := { Figures.zero with lowestShed := some .amenity } } } .vendor =
        true := by decide

/-- The overload begins and ceases; a dead bus keeps the places and takes the cause (R95, R98, R99, R102). -/
theorem test_witness_SheddingAndRestoration_acts :
    let s (live : Bool) (load : Nat) (c : Sc) : State := { onSc c with
      fli := { Fli.start with inputs := { Levels.inactive with busLive := live } }
      pt := { Pt.start with figs := { Figures.zero with capacity := 100, load := load } } }
    let idle : Sc := { Sc.start with
      recs := ⟨{ Feeder.start with inFlight := some .fon },
        { Feeder.start with closed := true, inFlight := some .foffOverload }, .start,
        { Feeder.start with closed := true }⟩
      rotAmenity := [.f1], rotVendor := [.f2], rotShow := [.f3], shedList := [⟨.f3, .overload⟩, ⟨.f1, .overload⟩] }
    let dead := (deliver (.sc (.busLive false)) (s false 0 idle)).1.sc
    (overloadTest idle (s true 99 idle)).window = some 2000 ∧ (overloadTest idle (s true 98 idle)).window = none ∧
      (overloadTest { loaded with window := none } (s true 99 loaded)).window = none ∧
      (overloadTest loaded (s false 99 loaded)).window = none ∧
      dead.shedList = [⟨.f3, .overload⟩, ⟨.f1, .deadBus⟩, ⟨.f2, .deadBus⟩] ∧
      (dead.recs.get .f1).inFlight = some .foffDeadBus ∧ (dead.recs.get .f2).inFlight = some .foffOverload ∧
      dead.recs.get .f4 = idle.recs.get .f4 ∧ restoreCandidate cell idle = some .f3 ∧
      ({ loaded with waiting := true } : Sc).waiting = true := by decide +kernel

/-- The shed summary with a feeder on the list left out, a waiting attempt repeated, restoration tested as a handover
leaves PARALLEL, and the order of a dead bus (R91, R92, R96, R98, R101). -/
theorem test_witness_SheddingAndRestoration_summary :
    let s : State := { onSc { loaded with waiting := true } with
      fli := { Fli.start with inputs := { Levels.inactive with busLive := true } } }
    let x := deliver (.sc .changed) s
    let dead := deliver (.sc (.busLive false)) s
    let listed : Sc := { loaded with shedList := [⟨.f1, .deadBus⟩, ⟨.f4, .openAtStart⟩] }
    let open_ : State := { s with sc := { Sc.start with shedList := [⟨.f1, .overload⟩] } }
    summaryOf cell loaded = ⟨some .amenity, 0⟩ ∧ summaryOf cell listed = ⟨some .vendor, 1⟩ ∧
      summaryOf cell Sc.start = ⟨none, 0⟩ ∧ x.1.sc.summary = ⟨some .amenity, 0⟩ ∧
      x.2 = [.pt .reportable, .fli (.command (.feeder .f1) .off), .sc .changed] ∧ x.1.sc.waiting = false ∧
      dead.2 = [.fli (.command (.feeder .f1) .off), .fli (.command (.feeder .f2) .off),
        .fli (.command (.feeder .f3) .off), .sc .changed] ∧
      dead.1.sc.shedList.map (·.feeder) = [.f1, .f2, .f3] ∧ [FeederId.f1, .f2, .f3].Nodup ∧
      (deliver (.sc (.handover .parallel)) open_).2 = [.fli (.command (.feeder .f1) .on)] ∧
      (deliver (.sc (.handover .call)) open_).2 = [] ∧ open_.sc.fonInFlight = false := by decide +kernel

theorem test_witness_SecondsOfTheFeeders :
    on.phase = .running ∧ on.cfg.fitted.get .f1 = true ∧
      (after .scSecondTimer
        { onSc { loaded with shedList := [⟨.f1, .overload⟩] } with
          bu := { on.bu with interval := openInvalid cell 0 } }).bu.interval.feeders.get .f1 = some ⟨1207, 0, 0, 1⟩ := by
  decide +kernel

/-- A window closed and calm from end to end latches its kW; one that began with the feeder open does not (R93). -/
theorem test_witness_SecondsOfTheFeeders_kw :
    let s (steady : Bool) : State := { onSc { Sc.start with
        recs := ⟨{ Feeder.start with closed := true, steady := steady }, .start, .start, .start⟩ } with
      pcu := { Pcu.start with f := ⟨⟨none, 0, 0, 10, 0, 0⟩, Pcu.start.f.q2, Pcu.start.f.q3, Pcu.start.f.q4⟩ } }
    let kw (steady : Bool) : Option Nat × Bool :=
      let r := (after (.windowExpiry (.f .f1)) (s steady)).sc.recs.get .f1
      (r.lastKw, r.steady)
    kw true = (some 60, true) ∧ kw false = (none, true) := by decide +kernel

/-! #### Fuel -/

/-- Two lots, the older one burned into. -/
def twoLots : List Lot := [⟨11, 900, 500, 1, 0, false⟩, ⟨12, 950, 500, 500, 0, false⟩]

theorem test_lots_sound : LotsSound twoLots := by unfold LotsSound twoLots; decide

theorem test_witness_HoursAndThresholds :
    let s (figure : Nat) : State := { on with pcu := { Pcu.start with bf := ⟨none, 0, 0, 0, 0, figure⟩ } }
    ({ Fu.start with overdraw := 1 } : Fu).book ≤ 0 ∧ 0 < ({ Fu.start with lots := twoLots } : Fu).book ∧
      hoursOf 501 (burnRate (s 0)) = 50 ∧ hoursOf 501 (burnRate (s 5010)) = 1 ∧ hoursOf 501 0 = 9999 ∧
      nextThreshold 60 15 .normal 60 = .low ∧ nextThreshold 60 15 .normal 61 = .normal ∧
      nextThreshold 60 15 .low 15 = .critical ∧ nextThreshold 60 15 .critical 24 = .critical ∧
      nextThreshold 60 15 .critical 25 = .low ∧ nextThreshold 60 15 .low 69 = .low ∧
      nextThreshold 60 15 .low 70 = .normal ∧ 15 + 5 ≤ 60 := by decide

/-- A changed threshold state is told to three units, and so is LOW at the end of start-up (R119). -/
theorem test_witness_HoursAndThresholds_reports :
    let low : State := onFu { Fu.start with threshold := .low }
    (computeHours Fu.start on).2 = [.cc (.threshold .normal .critical), .du .test, .pt .reportable] ∧
      (computeHours { Fu.start with threshold := .critical } on).2 = [] ∧
      (deliver (.fu .endOfStart) low).2 = [.cc (.threshold .normal .low), .du .test, .pt .reportable] ∧
      (deliver (.fu .endOfStart) on).2 = [] := by decide +kernel

theorem test_witness_BurnsAndFills :
    let f : Fu := { Fu.start with lots := twoLots }
    f.lots = ⟨11, 900, 500, 1, 0, false⟩ :: [⟨12, 950, 500, 500, 0, false⟩] ∧
      (burnOne f).1.lots.map (·.number) = [12] ∧ (burnOne f).1.heldPrice = 900 ∧ f.carries 12 = true ∧
      f.carries 13 = false ∧ (Fu.start).overdraw < 500000 ∧ ({ Fu.start with overdraw := 500000 } : Fu).overdraw = 500000 ∧
      (0 < ({ Fu.start with overdraw := 1 } : Fu).overdraw) ∧ on.fu.visiting = false ∧
      (fillOne f 0 false ⟨.flowing, 13, 1000, 31, 0, 0, false⟩).lots.length = 3 := by decide

/-- A level 200 dL off is within the tolerance, one 201 off is not. -/
theorem test_witness_ReconciliationsMatchTheLevel :
    let s (p : Nat) : State :=
      { onFu { Fu.start with lots := twoLots, reconTimer := some 120000 } with pcu := { Pcu.start with level := some p } }
    (s 0).isUp = true ∧ (s 0).fu.reconTimer.isSome = true ∧ on.pcu.level = none ∧ on.fu.reconTimer = none ∧
      (s 0).cfg.tankFitted = true ∧ (s 0).fu.visiting = false ∧
      (after .reconciliationTimerExpiry (s 701)).fu.book = 501 ∧
      (after .reconciliationTimerExpiry (s 702)).fu.book = 702 ∧
      (after .reconciliationTimerExpiry (s 300)).fu.book = 300 := by decide +kernel

/-- A shrink that empties a lot and one that ends in it; a gain that repays, that goes into the newest lot, and that opens
one (R122, R123). -/
theorem test_witness_ReconciliationsMatchTheLevel_lots :
    let lot (n price dl : Nat) : Lot := ⟨n, price, dl, dl, 0, false⟩
    let l := [lot 11 900 200, lot 12 1000 300]
    let x := shrinkLots 50 l 201
    let y := reconcile { Fu.start with overdraw := 100 } on .tool 301
    x.lots = [{ lot 12 1000 300 with remaining := 299 }] ∧ x.value = 181000 ∧ x.heldPrice = 900 ∧
      x.reports = [.bu (.lotChange (11, 900) (some (12, 1000)))] ∧ (shrinkLots 50 l 199).heldPrice = 50 ∧
      (shrinkLots 50 l 500).lots = [] ∧ (∀ z ∈ l, 1 ≤ z.remaining) ∧
      gainLots [] 50 7 0 false = [lot 0 50 7] ∧ gainLots l 50 7 0 false = l ++ [lot 0 1000 7] ∧
      gainLots [lot 0 50 7] 50 7 0 false = [lot 0 50 14] ∧ (gainLots (List.replicate 8 (lot 1 2 3)) 50 7 0 false).length = 8 ∧
      y.1.overdraw = 0 ∧ y.1.lots = [lot 0 0 301] ∧ y.1.recon.cancelled = 100 ∧ y.1.recon.corrected = 401 ∧
      (reconcile { Fu.start with lots := l } on .tool 299).1.shrinkValue = 181000 := by decide +kernel

/-- A terminal's open delivery of number 13, price 1,000, 500 l. -/
def opening : List Byte := [0, 13, 3, 0xE8, 0, 0, 1, 0xF4]

theorem test_witness_DeliveriesAreOpenedAndClosed :
    let d : Delivery := ⟨13, 1000, 31, 500, false, 30000⟩
    opening.length = 8 ∧ fieldAt opening 0 2 = 13 ∧ on.cfg.tankFitted = true ∧ State.reset.cfg.tankFitted = false ∧
      on.fu.delivery = none ∧ claimHolds { Fu.start with delivery := some d } on d = true ∧
      claimHolds on.fu on { d with truck := 0 } = false ∧ on.fu.visiting = false ∧ on.fu.claimRepeat = none ∧
      (⟨.flowing, 13, 1000, 31, 0, 0, false⟩ : Visit).inProgress = true ∧
      (after (.deliveryOpen terminal opening) on).fu.delivery = some d ∧
      ((after (.deliveryOpen terminal opening) (onFu { Fu.start with
        delivery := some { d with number := 12 }, visit := some ⟨.flowing, 12, 900, 31, 0, 0, false⟩ })).fu.visit.map
          (·.state)) = some (.ended .recordReplaced) := by decide +kernel

/-- A claim at its limits: 40 % of 20,000 dL free below Kf at 19,000 dL, H at 180, eight lots (R131, R132). -/
theorem test_witness_DeliveriesAreOpenedAndClosed_claims :
    let d : Delivery := ⟨13, 1000, 31, 500, false, 30000⟩
    let f (dl : Nat) (hours : Nat) : Fu := { Fu.start with lots := [⟨11, 0, dl, dl, 0, false⟩], hours := hours }
    claimHolds (f 11000 181) on d = true ∧ claimHolds (f 11001 181) on d = false ∧
      claimHolds (f 11001 180) on d = true ∧ claimHolds (f 19000 180) on d = false ∧
      claimPayload (f 11000 181) on d = [0, 13, 0, 181, 3, 32, 7] ∧
      claimHolds { Fu.start with hours := 0, lots := List.replicate 8 ⟨0, 0, 1, 1, 0, false⟩ } on d = false := by
  decide +kernel

theorem test_witness_VisitsAreJudged :
    let d : Delivery := ⟨13, 1000, 31, 500, false, 30000⟩
    let s (f : Fu) (key high : Bool) : State :=
      { onFu { f with delivery := some d } with
        fli := { Fli.start with inputs := { Levels.inactive with fillKey := key, highLevel := high } } }
    let begun (f : Fu) (key high : Bool) : Option VisitState :=
      (after (.visit terminal [0, 13]) (s f key high)).fu.visit.map (·.state)
    begun .start true false = some .flowing ∧ begun .start false true = some (.paused .keyOff) ∧
      begun .start true true = some (.paused .highLevel) ∧
      begun { Fu.start with lots := [⟨11, 0, 19000, 19000, 0, false⟩] } true false = some (.paused .fillLimit) ∧
      begun { Fu.start with lots := [⟨11, 0, 18999, 18999, 0, false⟩] } true false = some .flowing ∧
      begun { Fu.start with lots := List.replicate 8 ⟨0, 0, 1, 1, 0, false⟩ } true false = none ∧
      on.fu.flowStall = none ∧ on.fu.pauseTimer = none ∧ on.fu.visiting = false ∧
      ({ Fu.start with flowStall := some 120000 } : Fu).flowStall.isSome = true := by decide +kernel

/-- The visit paused, its cause replaced, resumed, and paused by a full book (R136, R137). -/
theorem test_witness_VisitsAreJudged_pauses :
    let s (st : VisitState) (lots : List Lot) (key high : Bool) : State :=
      { onFu { Fu.start with lots := lots, visit := some ⟨st, 13, 1000, 31, 0, 0, false⟩ } with
        fli := { Fli.start with inputs := { Levels.inactive with fillKey := key, highLevel := high } } }
    let led (c : Instr) (s : State) : Option VisitState := (after c s).fu.visit.map (·.state)
    let full : List Lot := [⟨11, 0, 19000, 19000, 0, false⟩]
    let key (b : Bool) : Instr := .inputChange .fillKey b 20
    let high (b : Bool) : Instr := .inputChange .highLevel b 20
    led (key false) (s .flowing [] true false) = some (.paused .keyOff) ∧
      led (key false) (s (.paused .fillLimit) full true false) = some (.paused .keyOff) ∧
      led (key true) (s (.paused .keyOff) [] false false) = some .flowing ∧
      led (key true) (s (.paused .keyOff) full false false) = some (.paused .fillLimit) ∧
      led (key true) (s (.paused .keyOff) full false true) = some (.paused .highLevel) ∧
      led (high true) (s .flowing [] true false) = some (.paused .highLevel) ∧
      led (high false) (s (.paused .highLevel) [] true true) = some .flowing ∧
      led (high false) (s (.paused .flowStall) [] true true) = some (.paused .flowStall) ∧
      (on.cfg.fillLimitDl : Int) = 19000 ∧ (s .flowing full true false).fu.book = 19000 ∧
      ((bookTest (s .flowing full true false).fu (s .flowing full true false)).1.visit.map (·.state)) =
        some (.paused .fillLimit) := by decide +kernel

/-! #### Accounts -/

theorem test_witness_CostsMakeTheRate :
    let p (clock e : Byte) : List Byte := [7, 0, 0, 0, clock, 0, 0, 0, 0, e, 0, 0, 0, 0, 50]
    let s : State := { on with bu := { on.bu with costPeers := [⟨7, 10, 1, 1, true⟩] } }
    (p 10 2).length = 15 ∧ fieldAt (p 10 0) 5 5 = 0 ∧ fieldAt (p 10 2) 5 5 = 2 ∧ fieldAt (p 11 2) 1 4 = 11 ∧
      on.bu.costPeers.find? (·.station == 7) = none ∧ on.bu.costPeers.length < 15 ∧
      s.bu.costPeers.find? (·.station == 7) = some ⟨7, 10, 1, 1, true⟩ ∧
      (after (.costReceived peer (p 11 2)) s).bu.costPeers = [⟨7, 11, 2, 50, false⟩] ∧
      (after (.costReceived peer (p 10 2)) s).bu.costPeers = [⟨7, 10, 1, 1, true⟩] := by decide +kernel

theorem test_witness_ChargesPostingsStatements :
    let slots : List Slot := [{ Slot.free with tenant := 1207 }]
    findSlot slots 1207 = some (0, { Slot.free with tenant := 1207 }) ∧ beNat [0, 0] < 1 ∧ 4095 < beNat [0x10, 0] ∧
      beNat [0x04, 0xB7] = 1207 ∧ slots.findIdx? (·.tenant == 1207) = some 0 ∧ slots[0]?.isSome = true ∧
      on.bu.slots.findIdx? (·.tenant == 1207) = none ∧ on.fli.inputs.lock = false ∧
      ({ Slot.free with tenant := 1207 } : Slot).statements.length ≤ 4 := by decide

/-- A step at the end point closes the interval, one before it does not, a jump at or past it does once (R144). -/
theorem test_witness_ChargesPostingsStatements_ends :
    let s : State := { on with bu := { on.bu with interval := openInterval cell 35400 } }
    let told (c : ClockChange) : Interval := (deliver (.bu (.clock c)) s).1.bu.interval
    s.bu.interval.endPoint = some 36000 ∧ s.bu.interval.band.isSome = true ∧ told (.step 35999) = s.bu.interval ∧
      (told (.step 36000)).endPoint = some 36900 ∧ told (.jump 35400 35999) = s.bu.interval ∧
      (told (.jump 35400 40000)).openClock = 40000 ∧ told (.becomingValid 40000) = s.bu.interval ∧
      (openInvalid cell 0).band = none ∧ (openInvalid cell 0).endPoint = none ∧
      cell.intervalLen ∈ [1, 2, 3, 4, 5, 6, 10, 12, 15] ∧ (cell.bands.get .f1).start ≤ 1439 := by decide +kernel

/-- Sums held at their largest values; the band in force before the first start minute; COST sent for energy (R142,
R148, R152). -/
theorem test_witness_ChargesPostingsStatements_sums :
    let s (i : Interval) : State := { on with bu := { on.bu with interval := i } }
    let bands : Quad Band := ⟨⟨true, 600, 1, 0, 0, 0⟩, ⟨true, 600, 2, 0, 0, 0⟩, ⟨true, 60, 3, 0, 0, 0⟩, .blank⟩
    let told (e : Nat) : List Report := (closeInterval { on.bu with interval := { Interval.blank with setE := e } } on 9).2
    let wh (e : Nat) (k : Nat) : Interval := { openInvalid cell 0 with feeders := ⟨some ⟨1207, e + k, 0, 0⟩, none, none, none⟩ }
    let most : State := (s { Interval.blank with setE := 1099511627773 }).handOn 1 [.bu (.seTotal 5)]
    let feeder : State := (s (wh 4294967294 0)).handOn 1 [.bu (.fTotal .f1 5)]
    most.bu.interval.setE = 1099511627775 ∧ most.store.interval.again = true ∧
      feeder.bu.interval = wh 4294967294 1 ∧ feeder.store.interval = on.store.interval.touch (wh 4294967294 1) ∧
      (s (wh 0 0)).handOn 1 [.bu (.fTotal .f2 5)] = { s (wh 0 0) with bu := { (s (wh 0 0)).bu with
        heldF := Quad.put on.bu.heldF .f2 5 } } ∧
      (deliver (.bu (.energised .f1)) (s (openInvalid cell 0))).1.bu.interval.feeders.q1 = some ⟨1207, 0, 1, 0⟩ ∧
      takeBand { cell with bands := bands } 0 = some ⟨2, 2, 0, 0⟩ ∧
      takeBand { cell with bands := bands } 3600 = some ⟨3, 3, 0, 0⟩ ∧ takeBand Cfg.blank 0 = none ∧
      told 0 = [.pt (.intervalClosed 9), .sr (.touch .interval)] ∧
      .lc (.offer (groupFrame cell .cost 0 [5, 0, 0, 0, 9, 0, 0, 0, 0, 2, 0, 0, 0, 0, 0])) ∈ told 2 := by decide +kernel

/-! #### The line -/

theorem test_witness_LineEvents :
    let f : TxFrame := groupFrame cell .state 0 []
    let l (n : Nat) : Lc := { Lc.start with
      enabled := true, sending := true, queue := [{ f with attempts := n }], access := some 11 }
    (onLc (l 1)).isUp = true ∧ on.lc.access = none ∧ (l 1).access.isSome = true ∧ on.lc.sending = false ∧
      (l 5).sending = true ∧ 5 < 6 ∧ ({ f with attempts := 6 } : TxFrame).attempts ≥ 6 ∧ f.answerOf = none ∧
      f.kind = .state ∧ (∀ g ∈ ([] : List TxFrame), g.kind ≠ .state) ∧ on.lc.backoff = none ∧
      ({ Lc.start with backoff := some 2 } : Lc).backoff.isSome = true ∧ Lc.start.enabled = false ∧
      (kick on.lc 5).access = none ∧ (kick { on.lc with queue := [f] } 5).access = some 11 := by decide

/-- A STATE takes the waiting one's place, other frames go behind up to eight, DUPLICATE keeps STATE alone (R168); parts
of an answer follow one another (R172). -/
theorem test_witness_LineEvents_queue :
    let st (n : Nat) : TxFrame := groupFrame cell .state n []
    let cost : TxFrame := groupFrame cell .cost 0 []
    let l (q : List TxFrame) : Lc := { on.lc with queue := q }
    let a (next : Nat) : Answer := ⟨3, ⟨28, 4, 9⟩, .done, List.replicate 44 0, next⟩
    let part : TxFrame := answerFrame (a 0) 0
    let left (next : Nat) : Lc := frameLeft { on.lc with answer := some (a next) } 5 part
    (offerFrame (l [cost, st 0]) 5 (st 1)).1.queue = [cost, st 1] ∧
      (offerFrame { l [st 0, cost] with sending := true } 5 (st 1)).1.queue = [st 0, cost, st 1] ∧
      offerFrame (l (List.replicate 8 cost)) 5 cost = (l (List.replicate 8 cost), false) ∧
      (offerFrame (l (List.replicate 7 cost)) 5 cost).2 = true ∧
      offerFrame { l [] with duplicate := true } 5 cost = ({ l [] with duplicate := true }, false) ∧
      (offerFrame Lc.start 5 cost).2 = false ∧ part.answerOf = some 3 ∧ partCount (a 0).data = 2 ∧
      partCount [] = 1 ∧ (left 1).queue = [answerFrame (a 0) 1] ∧ (left 1).answer = some (a 2) ∧ (left 2).answer = none ∧
      (frameLeft { on.lc with restart := .waiting 3 } 5 part).restart = .ready ∧
      giveAnswer { on.lc with answerSeq := 3 } 5 ⟨28, 4, 9⟩ .done (List.replicate 44 0) =
        ({ (offerFrame { on.lc with answerSeq := 4 } 5 part).1 with answer := some (a 1) }, true) ∧
      (giveAnswer { on.lc with queue := List.replicate 8 cost } 5 ⟨28, 4, 9⟩ .done []).1.answer = none := by
  decide +kernel

/-! #### What stays, and what always holds -/

theorem test_witness_CommandsLeaveTheRest :
    Instr.controls .gapLimitExpiry = true ∧ Instr.keepsBooks .flowStallExpiry = true ∧
      (∃ t, exec .gapLimitExpiry on = .next t) ∧ ∃ t, exec .flowStallExpiry on = .next t :=
  ⟨rfl, rfl, ⟨_, rfl⟩, ⟨_, rfl⟩⟩

/-- A state each invariant holds in, with an open valve, a share, lots and a call, and a step from it. -/
def busy : State :=
  { onCc (calling .call .open') with
    pending := [.runSecond]
    fli := { Fli.start with inputs := { Levels.inactive with fillKey := true }, valve := true }
    du := { Du.start with state := .onbus, share := 1250 }, fu := { Fu.start with lots := twoLots }
    lc := { on.lc with queue := [{ groupFrame cell .state 0 [] with attempts := 5 }] } }

theorem test_witness_StepsKeepTheFieldSafe :
    ValveSafe busy ∧ ShareSafe busy ∧ ShedListSound busy ∧ ∃ t, step busy = .next t := by
  refine ⟨?_, ?_, ?_, _, rfl⟩
  · unfold ValveSafe; decide
  · unfold ShareSafe; decide
  · unfold ShedListSound; decide

theorem test_witness_ProtectedSafe : ProtectedSafe busy := by
  refine ⟨?_, ?_⟩
  · intro n _; cases n <;> decide
  · intro k _ n h; cases k <;> simp [busy, onCc, on, State.reset, Sc.start, Sc.rotation] at h

theorem test_witness_StepsKeepTheFuelBookSound : FuelSound busy ∧ ∃ t, step busy = .next t := by
  refine ⟨⟨?_, ⟨?_, ?_⟩, ?_⟩, _, rfl⟩
  · unfold BookSound LotsSound; decide
  · intro a h; simp [busy, onCc, on, State.reset, Store.new, Rec.absent] at h
  · intro a h; simp [busy, onCc, on, State.reset, Store.new, Rec.absent] at h
  · intro v h; simp [busy, Fu.start] at h

theorem test_witness_StepsKeepTheGroupViewSound :
    PeersSound busy ∧ SidesSound busy ∧ QueueSound busy ∧ ∃ t, step busy = .next t := by
  refine ⟨?_, ?_, ⟨by decide, Nat.le_refl 5, ?_⟩, _, rfl⟩
  · unfold PeersSound; decide
  · unfold SidesSound; decide
  · intro g h; cases h

theorem test_witness_StepsKeepTheAccountsSound : AccountsSound busy ∧ ∃ t, step busy = .next t := by
  refine ⟨⟨rfl, rfl, ?_, ?_, by decide, ⟨?_, ?_⟩, by decide, ⟨?_, ?_⟩, by decide⟩, _, rfl⟩
  · unfold SlotSound; decide
  · intro r h
    have e : r = Rec.absent := List.eq_of_mem_replicate h
    subst e
    exact ⟨fun a h => by simp [Rec.absent] at h, fun a h => by simp [Rec.absent] at h⟩
  · intro a h; simp [busy, onCc, on, State.reset, Store.new, Rec.absent] at h
  · intro a h; simp [busy, onCc, on, State.reset, Store.new, Rec.absent] at h
  · intro a h; simp [busy, onCc, on, State.reset, Store.new, Rec.absent] at h
  · intro a h; simp [busy, onCc, on, State.reset, Store.new, Rec.absent] at h

end Sys2Proof.Machine
end

section
/-! SUPPORT. Reports that are no FOFF for a PROTECTED feeder, and what the CC hands over. -/

namespace Sys2Proof.Machine

/-! ### Reports that are no FOFF for a PROTECTED feeder -/

/-- A report that is no FOFF for a PROTECTED feeder (R89). -/
def Report.spares (g : Cfg) : Report → Bool
  | .fli (.command (.feeder n) .off) => g.cls.get n != .protectedClass
  | _ => true

section
variable (g : Cfg)
@[simp] theorem spares_pcu (m : PcuMsg) : Report.spares g (.pcu m) = true := rfl
@[simp] theorem spares_genset (c : Sense) : Report.spares g (.fli (.command .genset c)) = true := rfl
@[simp] theorem spares_breaker (c : Sense) : Report.spares g (.fli (.command .breaker c)) = true := rfl
@[simp] theorem spares_feederOn (n : FeederId) : Report.spares g (.fli (.command (.feeder n) .on)) = true := rfl
@[simp] theorem spares_feederOff (n : FeederId) :
    Report.spares g (.fli (.command (.feeder n) .off)) = (g.cls.get n != .protectedClass) := rfl
@[simp] theorem spares_auxRow (st : Handover) : Report.spares g (.fli (.auxRow st)) = true := rfl
@[simp] theorem spares_valve (b : Bool) : Report.spares g (.fli (.valve b)) = true := rfl
@[simp] theorem spares_pt (m : PtMsg) : Report.spares g (.pt m) = true := rfl
@[simp] theorem spares_du (m : DuMsg) : Report.spares g (.du m) = true := rfl
@[simp] theorem spares_cc (m : CcMsg) : Report.spares g (.cc m) = true := rfl
@[simp] theorem spares_sc (m : ScMsg) : Report.spares g (.sc m) = true := rfl
@[simp] theorem spares_fu (m : FuMsg) : Report.spares g (.fu m) = true := rfl
@[simp] theorem spares_bu (m : BuMsg) : Report.spares g (.bu m) = true := rfl
@[simp] theorem spares_lc (m : LcMsg) : Report.spares g (.lc m) = true := rfl
@[simp] theorem spares_sr (m : SrMsg) : Report.spares g (.sr m) = true := rfl

@[simp] theorem ccIdle_spares (c : Cc) : (ccIdle c).2.all (Report.spares g) = true := by simp [ccIdle, ccEnter]

@[simp] theorem callNow_spares (c : Cc) (s : State) (r : CallRec) :
    (callNow c s r).2.all (Report.spares g) = true := by
  simp [callNow, sendCall, ccEnter]

@[simp] theorem openCall_spares (c : Cc) (s : State) (k : Cause) : (openCall c s k).2.all (Report.spares g) = true := by
  simp only [openCall, ccEnter]
  split <;> simp

@[simp] theorem serve_spares (c : Cc) (s : State) : (serve c s).2.all (Report.spares g) = true := by
  simp only [serve]
  (repeat' split) <;> simp

@[simp] theorem absorbPending_spares (c : Cc) (s : State) : (absorbPending c s).2.all (Report.spares g) = true := by
  simp only [absorbPending]
  (repeat' split) <;> simp

@[simp] theorem dropCall_spares (c : Cc) (s : State) (r : CallRec) (w : AbortReason) :
    (dropCall c s r w).2.all (Report.spares g) = true := by
  simp only [dropCall, abortFrame, refFrame]
  (repeat' split) <;> simp

@[simp] theorem failedAttempt_spares (c : Cc) (s : State) (r : CallRec) :
    (failedAttempt c s r).2.all (Report.spares g) = true := by
  simp only [failedAttempt, ccEnter]
  (repeat' split) <;> simp

@[simp] theorem giveUp_spares (c : Cc) (s : State) : (giveUp c s).2.all (Report.spares g) = true := by
  simp only [giveUp, treatSet]
  split <;> simp

@[simp] theorem giveUpWith_spares (c : Cc) (s : State) (r : IncRec) (w : AbortReason) :
    (giveUpWith c s r w).2.all (Report.spares g) = true := by
  simp [giveUpWith, abortFrame, refFrame]

@[simp] theorem prepareSet_spares (c : Cc) (s : State) (r : IncRec) :
    (prepareSet c s r).2.all (Report.spares g) = true := by
  simp only [prepareSet, sendReady, stepFrame, refFrame, ccEnter]
  (repeat' split) <;> simp

@[simp] theorem checkDeadbus_spares (c : Cc) (s : State) : (checkDeadbus c s).2.all (Report.spares g) = true := by
  simp only [checkDeadbus, enterIncomingRelease, stepFrame, refFrame, ccEnter]
  (repeat' split) <;> simp

@[simp] theorem enterOutgoingRelease_spares (c : Cc) : (enterOutgoingRelease c).2.all (Report.spares g) = true := by
  simp [enterOutgoingRelease, ccEnter]

@[simp] theorem takeReady_spares (c : Cc) (s : State) (r : CallRec) :
    (takeReady c s r).2.all (Report.spares g) = true := by
  simp only [takeReady, stepFrame, refFrame, ccEnter]
  (repeat' split) <;> simp

@[simp] theorem takeClosed_spares (c : Cc) (s : State) (r : CallRec) :
    (takeClosed c s r).2.all (Report.spares g) = true := by
  simp only [takeClosed, enterOutgoingParallel, endFrame, refFrame, ccEnter]
  (repeat' split) <;> simp

@[simp] theorem partnerGone_spares (c : Cc) (s : State) : (partnerGone c s).2.all (Report.spares g) = true := by
  simp only [partnerGone, parallelLoss]
  (repeat' split) <;> simp

@[simp] theorem setChanged_spares (c : Cc) (s : State) (a b : SetState) :
    (setChanged c s a b).2.all (Report.spares g) = true := by
  simp only [setChanged, outgoingSet, incomingSet, parallelSet, endFrame, abortFrame, refFrame]
  (repeat' split) <;> simp

@[simp] theorem hearPartner_spares (c : Cc) (s : State) (n : Nat) :
    (hearPartner c s n).2.all (Report.spares g) = true := by
  simp only [hearPartner, takeShown, enterIncomingDeadbus, enterIncomingRelease, ccEnter]
  (repeat' split) <;> simp

/-- The CC hands the FLI aux rows alone. -/
theorem ccHandle_spares (m : CcMsg) (s : State) : (ccHandle m s).2.all (Report.spares g) = true := by
  cases m <;>
    simp only [ccHandle, thresholdChange, ccStartFail, ccJoinFail, ccTripFail, ccRampRefused, ccRampAbandoned,
      ccTripIssued, showChange, ccPeerLost, checkReady, checkSet, checkRelease, hearCall, hearOffer, hearPick, takeStep,
      takeEnd, takeAbort, takeHold, offerWindowEnd, retryWaitEnd, sendCall, prepLimitEnd, prepTimeoutEnd, gapLimitEnd,
      ccHandoverRequest, ccHandoverAbort, enterIncomingRelease, enterIncomingDeadbus, ccEnter, refFrame, abortFrame,
      stepFrame, endFrame] <;>
    (repeat' split) <;> simp
end
end Sys2Proof.Machine
end

section
/-! SUPPORT. The Dispatch Unit: S stays in its range, and no feeder is commanded. -/

namespace Sys2Proof.Machine

/-! ### The DU: S, and no feeder commanded -/

/-- S of a DU is at most 1,250, and 0 outside ONBUS and RAMPDOWN (R46). -/
def Du.ShareSafe (d : Du) : Prop := d.share ≤ 1250 ∧ (d.state ≠ .onbus → d.state ≠ .rampdown → d.share = 0)

/-- An act of the DU `d` keeps S safe, and commands no feeder. -/
def Du.Keeps (d : Du) (x : Act Du) : Prop := (d.ShareSafe → x.1.ShareSafe) ∧ ∀ g, x.2.all (Report.spares g) = true

namespace Du

theorem ShareSafe.of_zero {d : Du} (h : d.share = 0) : d.ShareSafe := ⟨by omega, fun _ _ => h⟩

/-- A change of the state alone is safe for a set that is off the bus, or goes onto it. -/
theorem ShareSafe.of_share {d e : Du} (h : d.ShareSafe) (he : e.share = d.share)
    (hs : e.state = d.state ∨ e.state = .onbus ∨ e.state = .rampdown ∨ (d.state ≠ .onbus ∧ d.state ≠ .rampdown)) :
    e.ShareSafe := by
  unfold ShareSafe at *
  rw [he]
  refine ⟨h.1, fun ho hr => ?_⟩
  rcases hs with hs | hs | hs | hs
  · exact h.2 (hs ▸ ho) (hs ▸ hr)
  · exact absurd hs ho
  · exact absurd hs hr
  · exact h.2 hs.1 hs.2

/-- What an act keeps depends on the state and S of the DU alone. -/
theorem Keeps.of_same {d e : Du} {x : Act Du} (h : e.Keeps x) (hs : e.state = d.state) (hh : e.share = d.share) :
    d.Keeps x := by
  unfold Keeps ShareSafe at *
  rwa [← hs, ← hh]

theorem Keeps.quiet {d e : Du} (h : d.ShareSafe → e.ShareSafe) : d.Keeps (quiet e) := ⟨h, fun _ => rfl⟩

theorem Keeps.andThen {d : Du} {x : Act Du} {f : Du → Act Du} (h : d.Keeps x) (hf : ∀ e : Du, e.Keeps (f e)) :
    d.Keeps (x.andThen f) :=
  ⟨fun hd => (hf _).1 (h.1 hd), fun g => by simp [h.2 g, (hf x.1).2 g]⟩

theorem Keeps.cons {d : Du} {x : Act Du} {r : Report} (h : d.Keeps x) (hr : ∀ g, r.spares g = true) :
    d.Keeps (x.1, r :: x.2) := ⟨h.1, fun g => by simp only [List.all_cons, hr g, h.2 g, Bool.and_self]⟩

theorem Keeps.append {d : Du} {x : Act Du} {rs : List Report} (h : d.Keeps x)
    (hr : ∀ g, rs.all (Report.spares g) = true) : d.Keeps (x.1, x.2 ++ rs) :=
  ⟨h.1, fun g => by simp only [List.all_append, hr g, h.2 g, Bool.and_self]⟩

theorem Keeps.wrap {d : Du} {x : Act Du} {r : Report} {rs : List Report} (h : d.Keeps x)
    (hr : ∀ g, r.spares g = true) (hs : ∀ g, rs.all (Report.spares g) = true) : d.Keeps (x.1, [r] ++ x.2 ++ rs) :=
  (h.cons hr).append hs

end Du

open Du

@[simp] theorem moveReports_spares (g : Cfg) (a b : SetState) : (moveReports a b).all (Report.spares g) = true := by
  unfold moveReports; split <;> simp

@[simp] theorem positionReports_spares (g : Cfg) (a b : Bool) :
    (positionReports a b).all (Report.spares g) = true := by
  unfold positionReports; split <;> simp

@[simp] theorem duFrame_spares (g : Cfg) (s : State) (k : Kind) (p : List Byte) :
    (duFrame s k p).spares g = true := rfl

theorem enterStopped_keeps (d : Du) : d.Keeps (enterStopped d) :=
  ⟨fun _ => .of_zero rfl, fun g => by simp only [enterStopped]; split <;> simp⟩

theorem enterCooling_keeps (d : Du) (a b : Timer) : d.Keeps (enterCooling d a b) :=
  ⟨fun _ => .of_zero rfl, fun g => by simp [enterCooling]⟩

theorem enterReady_keeps (d : Du) (h : d.state ≠ .onbus ∧ d.state ≠ .rampdown) : d.Keeps (enterReady d) :=
  ⟨fun hd => hd.of_share rfl (by simp [h]), fun g => by simp [enterReady]⟩

theorem enterWarming_keeps (d : Du) (h : d.state ≠ .onbus ∧ d.state ≠ .rampdown) : d.Keeps (enterWarming d) :=
  ⟨fun hd => hd.of_share rfl (by simp [h]), fun g => by simp [enterWarming]⟩

theorem enterOnbus_keeps (d : Du) : d.Keeps (enterOnbus d) :=
  ⟨fun hd => hd.of_share rfl (by simp [enterOnbus]), fun g => by simp [enterOnbus]⟩

theorem leaveBus_keeps (d : Du) (s : State) : d.Keeps (leaveBus d s) := by
  unfold leaveBus
  split
  · exact (enterCooling_keeps _ _ _).of_same rfl rfl
  · exact (enterStopped_keeps _).of_same rfl rfl

theorem enterFault_keeps (d : Du) (s : State) (c : FaultCause) : d.Keeps (enterFault d s c) := by
  unfold enterFault
  split
  · exact .quiet fun hd => hd.of_share (by split <;> rfl) (by split <;> simp)
  · exact ⟨fun _ => .of_zero rfl, fun g => by dsimp only; (repeat' split) <;> simp⟩

theorem exitTest_keeps (d : Du) (s : State) : d.Keeps (exitTest d s) := by
  unfold exitTest
  split
  · exact enterStopped_keeps d
  · exact .quiet id

theorem startRequest_keeps (d : Du) (s : State) (o : Origin) : d.Keeps (startRequest d s o) := by
  unfold startRequest
  split
  next h => exact ⟨fun hd => hd.of_share rfl (by simp [h]), fun g => by simp⟩
  · exact .quiet id
  · exact .quiet id
  · exact .quiet id
  next h =>
    split
    · dsimp only
      split
      · exact enterReady_keeps { d with cooldown := none, origin := some o } (by simp [h])
      · exact enterWarming_keeps { d with cooldown := none, origin := some o } (by simp [h])
    · exact .quiet id
  · exact .quiet id
  · exact .quiet id
  · exact ⟨id, fun g => by dsimp only; split <;> simp⟩

theorem takeHeld_keeps (d : Du) (s : State) : d.Keeps (takeHeld d s) := by
  unfold takeHeld
  split
  · split
    · exact startRequest_keeps { d with heldStart := none } s _
    · exact .quiet id
  · exact .quiet id

theorem dropHeld_shareSafe {d : Du} (h : d.ShareSafe) : (dropHeld d).ShareSafe := by
  unfold dropHeld; split <;> exact h

theorem stopRequest_keeps (d : Du) (s : State) : d.Keeps (stopRequest d s) := by
  unfold stopRequest
  dsimp only
  split
  · split
    · exact (enterCooling_keeps d _ _).cons fun g => by simp
    · exact ((enterStopped_keeps _).cons fun g => spares_genset g _).of_same rfl rfl
  · exact (enterCooling_keeps d _ _).cons fun g => by simp
  · exact (enterCooling_keeps d _ _).cons fun g => by simp
  · exact .quiet dropHeld_shareSafe
  all_goals exact .quiet id

theorem ccStopRequest_keeps (d : Du) (s : State) : d.Keeps (ccStopRequest d s) := by
  unfold ccStopRequest
  split
  · exact stopRequest_keeps d s
  · exact .quiet dropHeld_shareSafe

theorem stopIfStarted_keeps (d : Du) (s : State) (k : Keys) : d.Keeps (stopIfStarted d s k) := by
  unfold stopIfStarted
  split
  · exact stopRequest_keeps d s
  · exact .quiet id

theorem tryJoin_keeps (d : Du) (s : State) : d.Keeps (tryJoin d s) := by
  unfold tryJoin sendClaim
  split
  · exact .quiet id
  split
  · exact .quiet id
  · exact ⟨id, fun g => by dsimp only; split <;> simp⟩
  · split
    · exact ⟨id, fun g => by simp⟩
    · exact .quiet id

theorem joinRequest_keeps (d : Du) (s : State) : d.Keeps (joinRequest d s) := by
  unfold joinRequest
  split
  · exact .quiet id
  · exact .quiet id
  · exact .quiet id
  all_goals exact (tryJoin_keeps _ s).of_same rfl rfl

theorem busLiveChange_keeps (d : Du) (s : State) (b : Bool) : d.Keeps (busLiveChange d s b) := by
  unfold busLiveChange
  dsimp only
  (repeat' split) <;> exact (tryJoin_keeps _ s).of_same rfl rfl

theorem claimHoldEnd_keeps (d : Du) (s : State) : d.Keeps (claimHoldEnd d s) := by
  unfold claimHoldEnd
  split
  · exact .quiet id
  · exact ⟨id, fun g => by dsimp only; split <;> simp⟩

theorem hearClaim_keeps (d : Du) (s : State) (n : Nat) (k : Keys) : d.Keeps (hearClaim d s n k) := by
  unfold hearClaim
  split
  · split
    · exact (tryJoin_keeps _ s).of_same rfl rfl
    · exact .quiet id
  · exact .quiet id

theorem claimWaitEnd_keeps (d : Du) (s : State) : d.Keeps (claimWaitEnd d s) := by
  unfold claimWaitEnd
  dsimp only
  split
  · exact .quiet id
  split
  · exact (tryJoin_keeps _ s).of_same rfl rfl
  · exact .quiet id

theorem joinTimerEnd_keeps (d : Du) (s : State) : d.Keeps (joinTimerEnd d s) := by
  unfold joinTimerEnd
  split
  · exact .quiet id
  · dsimp only
    refine Keeps.wrap ?_ (fun g => by simp) (fun g => by simp)
    split
    · exact (stopIfStarted_keeps _ s _).of_same rfl rfl
    · exact .quiet id

/-! #### The share setpoint and the ramp -/

theorem computeShare_shareSafe {d : Du} (s : State) (h : d.ShareSafe) : (computeShare d s).ShareSafe := by
  unfold computeShare
  split
  next hc =>
    refine ⟨?_, fun ho => absurd hc.1 ho⟩
    simp only [shareOf, clampTo]
    (repeat' split) <;> omega
  · exact h

theorem issueTrip_keeps (d : Du) (o : EndOutcome) : d.Keeps (issueTrip d o) := ⟨id, fun g => by simp [issueTrip]⟩

theorem enterRampdown_keeps (d : Du) (s : State) : d.Keeps (enterRampdown d s) := by
  unfold enterRampdown
  dsimp only
  split
  · exact ⟨fun hd => hd.of_share rfl (by simp [issueTrip]), fun g => by simp [issueTrip]⟩
  · exact ⟨fun hd => hd.of_share rfl (by simp), fun g => by simp⟩

theorem resume_keeps (d : Du) : d.Keeps (resume d) := by
  unfold resume
  split
  · exact ⟨fun hd => hd.of_share rfl (by simp), fun g => by simp⟩
  · exact .quiet id

theorem abandonTest_keeps (d : Du) (s : State) : d.Keeps (abandonTest d s) := by
  unfold abandonTest
  split
  · exact (resume_keeps d).append fun g => by simp
  · exact .quiet id

theorem seWindow_keeps (d : Du) (s : State) : d.Keeps (seWindow d s) := by
  have hs : d.ShareSafe → (computeShare { d with shareArmed := true } s).ShareSafe :=
    fun hd => computeShare_shareSafe s hd
  unfold seWindow
  dsimp only
  split
  · split
    · exact issueTrip_keeps d _
    · exact .quiet id
  · split
    · exact ⟨fun hd => (issueTrip_keeps _ _).1 (hs hd), (issueTrip_keeps _ _).2⟩
    · exact .quiet hs

theorem rampSecond_shareSafe {d : Du} (s : State) (h : d.ShareSafe) : (rampSecond d s).ShareSafe := by
  unfold rampSecond
  split
  next hc => exact ⟨by have := h.1; dsimp only; omega, fun _ hr => absurd hc.1 hr⟩
  · exact h

theorem rampTimerEnd_keeps (d : Du) : d.Keeps (rampTimerEnd d) := by
  unfold rampTimerEnd
  split
  · exact issueTrip_keeps d _
  · exact .quiet id

/-! #### Dwells, contests and recovery -/

theorem recoveryRequests_keeps (d : Du) (s : State) : d.Keeps (recoveryRequests d s) :=
  Keeps.andThen ((startRequest_keeps _ s _).of_same rfl rfl) fun e => joinRequest_keeps e s

theorem beginRecovery_keeps (d : Du) (s : State) : d.Keeps (beginRecovery d s) := by
  unfold beginRecovery
  split
  · exact .quiet id
  split
  · exact recoveryRequests_keeps d s
  · exact .quiet id

theorem testDwells_shareSafe {d : Du} (s : State) (h : d.ShareSafe) : (testDwells d s).ShareSafe := by
  unfold testDwells; split <;> exact h

theorem endRecovery_keeps (d : Du) (s : State) : d.Keeps (endRecovery d s) := by
  unfold endRecovery
  dsimp only
  split
  · exact (tryJoin_keeps _ s).of_same rfl rfl
  · exact .quiet id

theorem testDeadBus_keeps (d : Du) (s : State) : d.Keeps (testDeadBus d s) := by
  unfold testDeadBus
  split
  · exact endRecovery_keeps d s
  split
  · exact .quiet id
  · split
    · exact beginRecovery_keeps d s
    · exact .quiet id
  · exact .quiet id
  · exact .quiet id

theorem duTest_keeps (d : Du) (s : State) : d.Keeps (duTest d s) :=
  ⟨fun hd => (testDeadBus_keeps _ s).1 (testDwells_shareSafe s hd), (testDeadBus_keeps _ s).2⟩

theorem deadBusEnd_keeps (d : Du) (s : State) : d.Keeps (deadBusEnd d s) := by
  unfold deadBusEnd
  split
  · exact .quiet id
  · exact (beginRecovery_keeps _ s).of_same rfl rfl

theorem escalationEnd_keeps (d : Du) (s : State) : d.Keeps (escalationEnd d s) := by
  unfold escalationEnd
  split
  · exact .quiet id
  · exact recoveryRequests_keeps d s

theorem startDwellEnd_keeps (d : Du) (s : State) : d.Keeps (startDwellEnd d s) := by
  unfold startDwellEnd
  split
  · exact .quiet id
  · exact .quiet id
  · dsimp only
    refine Keeps.append ?_ fun g => by simp
    split
    · refine Keeps.cons (Keeps.andThen ?_ fun e => joinRequest_keeps e s) fun g => duFrame_spares g s _ _
      split
      · exact (startRequest_keeps _ s _).of_same rfl rfl
      · exact .quiet id
    · exact .quiet id

theorem hearStartIntent_keeps (d : Du) (s : State) (n : Nat) (k : Keys) : d.Keeps (hearStartIntent d s n k) := by
  unfold hearStartIntent
  split
  · exact .quiet id
  · split
    · exact .quiet id
    · exact Keeps.andThen ((stopIfStarted_keeps _ s _).of_same rfl rfl) fun e => ⟨id, fun g => by simp⟩

theorem stopDwellEnd_keeps (d : Du) (s : State) : d.Keeps (stopDwellEnd d s) := by
  unfold stopDwellEnd
  split
  · exact .quiet id
  · exact .quiet id
  · dsimp only
    split
    · exact ⟨id, fun g => by simp⟩
    · exact ⟨id, fun g => by simp⟩

theorem hearStopIntent_keeps (d : Du) (s : State) (n h : Nat) : d.Keeps (hearStopIntent d s n h) := by
  unfold hearStopIntent
  (repeat' split) <;> exact ⟨id, fun g => by simp⟩

theorem intentHoldEnd_keeps (d : Du) (s : State) : d.Keeps (intentHoldEnd d s) := by
  unfold intentHoldEnd
  split
  · exact .quiet id
  · split
    · exact (enterRampdown_keeps _ s).of_same rfl rfl
    · exact ⟨id, fun g => by simp⟩

/-! #### Inputs and breaker -/

theorem runningChange_keeps (d : Du) (s : State) (b : Bool) : d.Keeps (runningChange d s b) := by
  unfold runningChange
  split
  next h =>
    split
    · exact enterReady_keeps d (by simp [h])
    · exact ⟨fun hd => hd.of_share rfl (by simp [h]), fun g => by simp⟩
  next h =>
    dsimp only
    split
    · exact (enterReady_keeps _ (by simp [h])).of_same rfl rfl
    · exact (enterWarming_keeps _ (by simp [h])).of_same rfl rfl
  · exact Keeps.andThen ((enterStopped_keeps _).of_same rfl rfl) fun e => ⟨id, fun g => by simp⟩
  · exact Keeps.andThen ((enterStopped_keeps _).of_same rfl rfl) fun e => ⟨id, fun g => by simp⟩
  · exact enterFault_keeps d s _
  · exact enterFault_keeps d s _
  · exact enterStopped_keeps d
  · exact exitTest_keeps d s
  all_goals exact .quiet id

theorem readyChange_keeps (d : Du) (b : Bool) : d.Keeps (readyChange d b) := by
  unfold readyChange
  split
  · exact .quiet id
  · split
    next h => exact enterReady_keeps d (by simp [h])
    next h => exact enterWarming_keeps d (by simp [h])
    · exact .quiet id

theorem faultChange_keeps (d : Du) (s : State) (b : Bool) : d.Keeps (faultChange d s b) := by
  unfold faultChange
  split
  · exact enterFault_keeps d s _
  · exact exitTest_keeps d s

theorem breakerClosed_keeps (d : Du) (s : State) (b : Bool) : d.Keeps (breakerClosed d s b) := by
  unfold breakerClosed
  dsimp only
  split
  · exact (enterOnbus_keeps _).of_same rfl rfl
  · exact (enterOnbus_keeps _).of_same rfl rfl
  · exact (enterOnbus_keeps _).of_same rfl rfl
  · exact (enterFault_keeps _ s _).of_same rfl rfl
  · exact (enterFault_keeps _ s _).of_same rfl rfl
  · exact ⟨id, fun g => by dsimp only; split <;> simp⟩
  · exact ⟨id, fun g => by simp⟩
  · exact ⟨id, fun g => by simp⟩

theorem breakerOpened_keeps (d : Du) (s : State) : d.Keeps (breakerOpened d s) := by
  unfold breakerOpened
  split
  · exact leaveBus_keeps d s
  · exact leaveBus_keeps d s
  · exact Keeps.andThen ((exitTest_keeps _ s).of_same rfl rfl) fun e => ⟨id, fun g => by simp⟩
  all_goals exact ⟨id, fun g => by simp⟩

theorem breakerFailed_keeps (d : Du) (s : State) (c : Sense) : d.Keeps (breakerFailed d s c) := by
  have entered : ∀ cause, d.Keeps
      (if d.state = .fault then
        (exitTest { d with breaker := s.fli.inputs.brk } s).andThen fun e =>
          (e, positionReports d.breaker s.fli.inputs.brk)
      else enterFault { d with breaker := s.fli.inputs.brk } s cause) := by
    intro cause
    split
    · exact Keeps.andThen ((exitTest_keeps _ s).of_same rfl rfl) fun e => ⟨id, fun g => by simp⟩
    · exact (enterFault_keeps _ s _).of_same rfl rfl
  cases c with
  | on => exact entered _
  | off => exact Keeps.andThen (entered _) fun e => ⟨id, fun g => by simp⟩

theorem startTimerEnd_keeps (d : Du) (s : State) : d.Keeps (startTimerEnd d s) := by
  unfold startTimerEnd
  split
  · exact Keeps.andThen (enterFault_keeps d s _) fun e => ⟨id, fun g => by simp⟩
  · exact .quiet id

/-- Whatever reaches the DU keeps S safe, and the DU commands no feeder. -/
theorem duHandle_keeps (m : DuMsg) (s : State) : s.du.Keeps (duHandle m s) := by
  have tested : ∀ e : Du, e.Keeps (e, [.du .test]) := fun e => ⟨id, fun g => by simp⟩
  cases m with
  | running b => exact runningChange_keeps _ s b
  | readyInput b => exact readyChange_keeps _ b
  | faultInput b => exact faultChange_keeps _ s b
  | busLive b => exact Keeps.andThen (busLiveChange_keeps _ s b) tested
  | syncOk b => simp only [duHandle]; split; exacts [tryJoin_keeps _ s, .quiet id]
  | confirmed c => cases c; exacts [breakerClosed_keeps _ s _, breakerOpened_keeps _ s]
  | failed c => exact breakerFailed_keeps _ s c
  | uncommanded b => simp only [duHandle]; split; exacts [breakerClosed_keeps _ s _, breakerOpened_keeps _ s]
  | seTotal t => exact .quiet id
  | seWindow => exact seWindow_keeps _ s
  | figures power =>
      refine Keeps.andThen ?_ tested
      split
      · exact ⟨fun hd => (abandonTest_keeps _ s).1 (computeShare_shareSafe s hd), (abandonTest_keeps _ s).2⟩
      · exact abandonTest_keeps _ s
  | test => exact duTest_keeps _ s
  | computeShare => exact .quiet (computeShare_shareSafe s)
  | tryJoin => exact tryJoin_keeps _ s
  | takeHeld => exact takeHeld_keeps _ s
  | peerLost n =>
      refine Keeps.andThen ?_ tested
      split
      · exact claimWaitEnd_keeps _ s
      · exact .quiet id
  | duplicate => exact .quiet id
  | startTimer => exact startTimerEnd_keeps _ s
  | cooldown => simp only [duHandle, cooldownEnd]; split <;> exact ⟨id, fun g => by simp⟩
  | stopRepeat => simp only [duHandle, stopRepeatEnd]; split <;> exact ⟨id, fun g => by simp⟩
  | rampSecond => exact .quiet (rampSecond_shareSafe s)
  | rampTimer => exact rampTimerEnd_keeps _
  | joinTimer => exact joinTimerEnd_keeps _ s
  | startDwell => exact startDwellEnd_keeps _ s
  | stopDwell => exact stopDwellEnd_keeps _ s
  | intentHold => exact intentHoldEnd_keeps _ s
  | deadBus => exact deadBusEnd_keeps _ s
  | escalation => exact escalationEnd_keeps _ s
  | claimHold => exact claimHoldEnd_keeps _ s
  | claimWait => exact claimWaitEnd_keeps _ s
  | startIntent n k => exact hearStartIntent_keeps _ s n k
  | stopIntent n h => exact hearStopIntent_keeps _ s n h
  | claim n k => exact hearClaim_keeps _ s n k
  | reqStart => exact startRequest_keeps _ s _
  | reqJoin => exact joinRequest_keeps _ s
  | reqRamp => simp only [duHandle]; split; exacts [enterRampdown_keeps _ s, ⟨id, fun g => by simp⟩]
  | reqResume => exact resume_keeps _
  | reqTrip => exact ⟨id, fun g => by simp only [duHandle]; split <;> simp⟩
  | reqStop => exact ccStopRequest_keeps _ s

end Sys2Proof.Machine
end

section
/-! SUPPORT. What the PCU, the PT, the FU, the BU, the LC and the SR hand over: no FOFF. -/

namespace Sys2Proof.Machine
/-! ### What the other units hand over -/

section
variable (g : Cfg)

@[simp] theorem totalReports_spares (c : Channel) (t : BitVec 32) :
    (totalReports c t).all (Report.spares g) = true := by cases c <;> simp [totalReports]

@[simp] theorem figureReports_spares (c : Channel) : (figureReports c).all (Report.spares g) = true := by
  cases c <;> simp [figureReports]

theorem pcuHandle_spares (m : PcuMsg) (s : State) : (pcuHandle m s).2.all (Report.spares g) = true := by
  cases m with
  | pulse c gap active =>
      simp only [pcuHandle, pcuStretch, pcuPulse]
      (repeat' split) <;> simp
  | window c =>
      simp only [pcuHandle, pcuWindow]
      split <;> simp

@[simp] theorem recompute_spares (p : Pt) (s : State) : (recompute p s).2.all (Report.spares g) = true := by
  simp only [recompute, figureChanges]
  (repeat' split) <;> simp

@[simp] theorem sendState_spares (p : Pt) (s : State) : (sendState p s).2.all (Report.spares g) = true := by
  simp [sendState]

@[simp] theorem moveClock_spares (p : Pt) (v : Nat) (c : ClockChange) :
    (moveClock p v c).2.all (Report.spares g) = true := by
  simp only [moveClock]
  split <;> simp

@[simp] theorem hearClock_spares (p : Pt) (b : Bool) (v : Nat) : (hearClock p b v).2.all (Report.spares g) = true := by
  simp only [hearClock]
  (repeat' split) <;> simp

theorem ptHandle_spares (m : PtMsg) (s : State) : (ptHandle m s).2.all (Report.spares g) = true := by
  cases m <;> simp only [ptHandle, hearState, takeState, loseEntry, clockSecond, timeSetClock] <;>
    (repeat' split) <;> simp

@[simp] theorem computeHours_spares (f : Fu) (s : State) : (computeHours f s).2.all (Report.spares g) = true := by
  simp only [computeHours, thresholdReports]
  split <;> simp

@[simp] theorem burnOne_spares (f : Fu) : (burnOne f).2.all (Report.spares g) = true := by
  simp only [burnOne, lotChange]
  (repeat' split) <;> simp

@[simp] theorem bookTest_spares (f : Fu) (s : State) : (bookTest f s).2.all (Report.spares g) = true := by
  simp only [bookTest, causeCleared, enterPaused, enterFlowing]
  (repeat' split) <;> simp

@[simp] theorem shrinkLots_spares (held : Nat) (l : List Lot) (q : Nat) :
    (shrinkLots held l q).reports.all (Report.spares g) = true := by
  induction l generalizing held q with
  | nil => rfl
  | cons a l ih =>
      simp only [shrinkLots, lotChange]
      (repeat' split) <;> simp [ih]

@[simp] theorem reconcile_spares (f : Fu) (s : State) (o : ReconOrigin) (p : Nat) :
    (reconcile f s o p).2.all (Report.spares g) = true := by
  simp only [reconcile, shrink, gain]
  (repeat' split) <;> simp

@[simp] theorem judgeClaim_spares (f : Fu) (s : State) (d : Delivery) :
    (judgeClaim f s d).2.all (Report.spares g) = true := by
  simp only [judgeClaim]
  split <;> simp

@[simp] theorem clearDelivery_spares (f : Fu) (d : Delivery) (c : EndCause) :
    (clearDelivery f d c).2.all (Report.spares g) = true := by
  simp only [clearDelivery, endVisit]
  (repeat' split) <;> simp

/-- The FU hands the FLI requests for VALVE alone. -/
theorem fuHandle_spares (m : FuMsg) (s : State) : (fuHandle m s).2.all (Report.spares g) = true := by
  cases m with
  | burn n => cases n <;> simp only [fuHandle, fuBurn] <;> (repeat' split) <;> simp
  | fill n => cases n <;> simp only [fuHandle, fuFill] <;> (repeat' split) <;> simp
  | _ =>
      simp only [fuHandle, levelWindow, keyChange, highChange, deliveryOpen, deliveryClose, visitFrame, visitEndFrame,
        recordExpiry, claimRepeatEnd, flowStallEnd, pauseTimerEnd, reconTimerEnd, fuReconcile, fuTankQuery, replyFrame,
        acceptVisit, endVisit, causeCleared, enterPaused, enterFlowing, thresholdReports]
      (repeat' split) <;> simp

@[simp] theorem withInterval_spares (b : Bu) (i : Interval) : (withInterval b i).2.all (Report.spares g) = true := by
  simp only [withInterval]
  split <;> simp

@[simp] theorem bookUnit_spares (b : Bu) (i : Interval) (k : Nat) (next : Nat → BuMsg) :
    (bookUnit b i k next).2.all (Report.spares g) = true := by
  simp only [bookUnit]
  split <;> simp

/-- A run of acts over the feeders hands over what each of them does. -/
theorem foldl_andThen_all {α β : Type} {p : Report → Bool} (f : α → β → Act α) (hf : ∀ a n, (f a n).2.all p = true)
    (l : List β) (x : Act α) (hx : x.2.all p = true) :
    (l.foldl (fun y n => y.andThen fun a => f a n) x).2.all p = true := by
  induction l generalizing x with
  | nil => exact hx
  | cons n l ih => exact ih _ (by simp only [andThen_snd, List.all_append, hx, hf, Bool.and_self])

/-- The postings of a close are reported to the SR alone. -/
theorem postAll_all {p : Report → Bool} (hsr : ∀ m, p (.sr m) = true) (k : CloseTerms) (b : Bu)
    (accs : Quad (Option FeederAcc)) : (postAll k b accs).2.all p = true := by
  refine foldl_andThen_all _ (fun c n => ?_) _ _ rfl
  simp only [postFeeder]
  (repeat' split) <;> simp [hsr]

@[simp] theorem postAll_spares (k : CloseTerms) (b : Bu) (accs : Quad (Option FeederAcc)) :
    (postAll k b accs).2.all (Report.spares g) = true := postAll_all (fun _ => rfl) k b accs

@[simp] theorem mapAccounts_spares (b : Bu) (c : Cfg) : (mapAccounts b c).2.all (Report.spares g) = true := by
  refine foldl_andThen_all _ (fun a n => ?_) _ _ (by simp [restateReports])
  simp only [mapCode]
  (repeat' split) <;> simp

@[simp] theorem closeInterval_spares (b : Bu) (s : State) (v : Nat) :
    (closeInterval b s v).2.all (Report.spares g) = true := by
  simp only [closeInterval]
  (repeat' split) <;> simp

theorem buHandle_spares (m : BuMsg) (s : State) : (buHandle m s).2.all (Report.spares g) = true := by
  cases m with
  | seUnits k => cases k <;> simp [buHandle, bookSet]
  | fUnits n k => cases k <;> simp [buHandle, bookFeeder]
  | _ =>
      simp only [buHandle, clockChange, statementClose, codeQuery]
      (repeat' split) <;> simp

theorem buBringUp_spares (s : State) : (buBringUp s).2.all (Report.spares g) = true := by
  simp only [buBringUp, startClose]
  split <;> simp

theorem frameReport_spares (h : Header) (k : Kind) (p : List Byte) :
    (frameReport h k p).all (Report.spares g) = true := by
  cases k <;> simp [frameReport]

theorem subKind_report_spares (k : SubKind) (a : Ask) (p : List Byte) :
    (k.report a p).all (Report.spares g) = true := by
  cases k <;> simp [SubKind.report]

@[simp] theorem toolCommand_spares (l : Lc) (s : State) (h : Header) (p : List Byte) :
    (toolCommand l s h p).2.all (Report.spares g) = true := by
  simp only [toolCommand, takeTool]
  (repeat' split) <;> simp [subKind_report_spares]

@[simp] theorem frameEnd_spares (l : Lc) (s : State) (h : Header) (k : Byte) (p : List Byte) :
    (frameEnd l s h k p).2.all (Report.spares g) = true := by
  simp only [frameEnd, setDuplicate, dispatchFrame]
  (repeat' split) <;> simp [frameReport_spares]

/-- The LC hands the owner of a frame the frame, and the FLI nothing. -/
theorem lcHandle_spares (m : LcMsg) (s : State) : (lcHandle m s).2.all (Report.spares g) = true := by
  cases m <;> simp only [lcHandle, rawEnd] <;> (repeat' split) <;> simp

theorem srHandle_spares (m : SrMsg) (s : State) : (srHandle m s).2.all (Report.spares g) = true := by
  cases m <;> rfl
end
end Sys2Proof.Machine
end

section
/-! SUPPORT. The Field Line Interface: VALVE, and no FOFF for a PROTECTED feeder. -/

namespace Sys2Proof.Machine

/-! ### The FLI: VALVE (R15, R135) -/

/-- VALVE of an FLI is open only with FILL KEY on and HIGH LEVEL off, as reported and at the contacts. -/
def Fli.ValveSafe (x : Fli) : Prop :=
  x.valve = true → x.inputs.fillKey = true ∧ x.inputs.highLevel = false ∧
    x.contact .fillKey = true ∧ x.contact .highLevel = false

theorem Fli.ValveSafe.of_same {x y : Fli} (h : x.ValveSafe) (hv : y.valve = x.valve) (hi : y.inputs = x.inputs)
    (hk : y.kept = x.kept) : y.ValveSafe := by
  unfold ValveSafe contact at *
  rwa [hv, hi, hk]

theorem Fli.ValveSafe.of_closed {x : Fli} (h : x.valve = false) : x.ValveSafe := fun ho => by simp [h] at ho

theorem valveAfter_eq_true {i : Input} {b v : Bool} :
    valveAfter i b v = true ↔ v = true ∧ (i = .fillKey → b = true) ∧ (i = .highLevel → b = false) := by
  cases i <;> simp [valveAfter]

/-- VALVE follows a change of input `i` to `b`: it stays safe when every input and every contact stands as before, or as
the change says. -/
theorem Fli.ValveSafe.of_change {x y : Fli} {i : Input} {b : Bool} (h : x.ValveSafe)
    (hv : y.valve = true → valveAfter i b x.valve = true)
    (hi : ∀ j, inputLevel y.inputs j = inputLevel x.inputs j ∨ (i = j ∧ inputLevel y.inputs j = b))
    (hc : ∀ j, y.contact j = x.contact j ∨ (i = j ∧ y.contact j = b) ∨ y.contact j = inputLevel y.inputs j) :
    y.ValveSafe := by
  intro ho
  obtain ⟨hx, hkey, hhigh⟩ := valveAfter_eq_true.mp (hv ho)
  obtain ⟨xkey, xhigh, ckey, chigh⟩ := h hx
  have ykey : inputLevel y.inputs .fillKey = true := by
    rcases hi .fillKey with e | ⟨e, e'⟩
    · exact e.trans xkey
    · exact e'.trans (hkey e)
  have yhigh : inputLevel y.inputs .highLevel = false := by
    rcases hi .highLevel with e | ⟨e, e'⟩
    · exact e.trans xhigh
    · exact e'.trans (hhigh e)
  refine ⟨ykey, yhigh, ?_, ?_⟩
  · rcases hc .fillKey with e | ⟨e, e'⟩ | e
    · exact e.trans ckey
    · exact e'.trans (hkey e)
    · exact e.trans ykey
  · rcases hc .highLevel with e | ⟨e, e'⟩ | e
    · exact e.trans chigh
    · exact e'.trans (hhigh e)
    · exact e.trans yhigh

/-- With the kept changes as they were, a contact stands as before or as the inputs say. -/
theorem contact_of_kept {x y : Fli} (h : y.kept = x.kept) (j : Input) :
    y.contact j = x.contact j ∨ y.contact j = inputLevel y.inputs j := by
  unfold Fli.contact
  rw [h]
  split
  · exact .inl rfl
  · exact .inr rfl

theorem setInput_or (l : Levels) (i j : Input) (b : Bool) :
    inputLevel (setInput l i b) j = inputLevel l j ∨ (i = j ∧ inputLevel (setInput l i b) j = b) := by
  rw [inputLevel_setInput]
  by_cases e : i = j <;> simp [e]

theorem fliTake_valveSafe {x : Fli} (h : x.ValveSafe) (i : Input) (b : Bool) : (fliTake x i b).1.ValveSafe :=
  h.of_change (i := i) (b := b) (by simp) (by simpa using fun j => setInput_or x.inputs i j b)
    fun j => (contact_of_kept (fliTake_kept x i b) j).imp id .inr

theorem fliChange_valveSafe {x : Fli} (h : x.ValveSafe) (i : Input) (b : Bool) : (fliChange x i b).1.ValveSafe := by
  unfold fliChange
  split
  · exact h
  · exact fliTake_valveSafe h i b

theorem fliKeep_valveSafe {x : Fli} (h : x.ValveSafe) (i : Input) (b : Bool) : (fliKeep x i b).1.ValveSafe := by
  refine h.of_change (i := i) (b := b) (fun hv => hv) (fun j => .inl rfl) fun j => ?_
  rw [fliKeep_contact]
  by_cases e : i = j <;> simp [e]

theorem fliReportKept_valveSafe {x : Fli} (h : x.ValveSafe) : (fliReportKept x).1.ValveSafe := by
  have contacts := fliReportKept_contact x
  revert contacts
  unfold fliReportKept
  split
  · exact fun _ => h
  next k rest hk =>
    unfold fliChange
    split
    · exact fun contacts => h.of_change (i := .lock) (b := false) id (fun j => .inl rfl) fun j => .inl (contacts j)
    · exact fun contacts => h.of_change (i := k.1) (b := k.2) (by simp)
        (by simpa using fun j => setInput_or x.inputs k.1 j k.2) fun j => .inl (contacts j)

theorem fliIssue_keeps_valve (x : Fli) (d : Device) (c : Sense) :
    (fliIssue x d c).1.valve = x.valve ∧ (fliIssue x d c).1.inputs = x.inputs ∧
      (fliIssue x d c).1.kept = x.kept := by
  unfold fliIssue
  (repeat' split) <;> simp

theorem fliCommand_keeps_valve (x : Fli) (d : Device) (c : Sense) :
    (fliCommand x d c).1.valve = x.valve ∧ (fliCommand x d c).1.inputs = x.inputs ∧
      (fliCommand x d c).1.kept = x.kept := by
  simp only [fliCommand]
  (repeat' split) <;> simp [fliIssue_keeps_valve]

theorem fliPulseEnd_keeps_valve (x : Fli) (d : Device) :
    (fliPulseEnd x d).1.valve = x.valve ∧ (fliPulseEnd x d).1.inputs = x.inputs ∧
      (fliPulseEnd x d).1.kept = x.kept := by
  simp only [fliPulseEnd]
  (repeat' split) <;> simp [fliIssue_keeps_valve]

/-- Whatever reaches the FLI keeps VALVE safe. -/
theorem fliHandle_valveSafe (m : FliMsg) (s : State) (h : s.fli.ValveSafe) : (fliHandle m s).1.ValveSafe := by
  cases m with
  | level i b held =>
      simp only [fliHandle, fliLevel]
      split
      · exact h
      split
      · exact fliChange_valveSafe h i b
      · exact fliKeep_valveSafe h i b
  | command d c =>
      obtain ⟨hv, hi, hk⟩ := fliCommand_keeps_valve s.fli d c
      exact h.of_same hv hi hk
  | pulseEnd d =>
      obtain ⟨hv, hi, hk⟩ := fliPulseEnd_keeps_valve s.fli d
      exact h.of_same hv hi hk
  | limit d =>
      simp only [fliHandle, fliLimit]
      split
      · exact h
      · exact h.of_same (by simp) (by simp) (by simp)
  | valve b =>
      intro ho
      simp only [fliHandle, quiet_fst, Fli.mayFill, Bool.and_eq_true, Bool.not_eq_true'] at ho
      obtain ⟨⟨-, ⟨⟨hkey, ckey⟩, hhigh⟩, chigh⟩, -⟩ := ho
      exact ⟨hkey, hhigh, ckey, chigh⟩
  | auxRow st =>
      simp only [fliHandle]
      split <;> exact h.of_same rfl rfl rfl
  | reportKept => exact fliReportKept_valveSafe h

/-! ### The FLI: no FOFF for a PROTECTED feeder (R89) -/

/-- No FOFF is pulsed or kept for a PROTECTED feeder. -/
def Fli.FoffSafe (g : Cfg) (x : Fli) : Prop :=
  ∀ n, g.cls.get n = .protectedClass →
    (x.dev (.feeder n)).pulse ≠ some .off ∧ (x.dev (.feeder n)).deferred ≠ some .off

theorem Fli.FoffSafe.of_dev {g : Cfg} {x y : Fli} (h : x.FoffSafe g) (hd : ∀ d, y.dev d = x.dev d) : y.FoffSafe g :=
  fun n hn => by rw [hd]; exact h n hn

theorem Fli.FoffSafe.putDev {g : Cfg} {x : Fli} (h : x.FoffSafe g) {d : Device} {v : Dev}
    (hv : ∀ n, d = .feeder n → g.cls.get n = .protectedClass → v.pulse ≠ some .off ∧ v.deferred ≠ some .off) :
    (x.putDev d v).FoffSafe g := by
  intro n hn
  by_cases e : Device.feeder n = d
  · rw [← e, Fli.dev_putDev_same]
    exact hv n e.symm hn
  · rw [Fli.dev_putDev_other _ _ e]
    exact h n hn

/-- A command that is no FOFF for a PROTECTED feeder. -/
def sparesFeeder (g : Cfg) (d : Device) (c : Sense) : Prop :=
  ∀ n, d = .feeder n → g.cls.get n = .protectedClass → c ≠ .off

theorem sparesFeeder_of_spares {g : Cfg} {d : Device} {c : Sense} (h : Report.spares g (.fli (.command d c)) = true) :
    sparesFeeder g d c := by
  rintro n rfl hn rfl
  simp [hn] at h

theorem dev_with_breakerFail (x : Fli) (b : Bool) (d : Device) : ({ x with breakerFail := b } : Fli).dev d = x.dev d := by
  cases d <;> rfl

theorem fliIssue_foffSafe {g : Cfg} {x : Fli} (h : x.FoffSafe g) {d : Device} {c : Sense} (hc : sparesFeeder g d c) :
    (fliIssue x d c).1.FoffSafe g := by
  have put : ∀ q, (x.putDev d ⟨some c, none, q⟩).FoffSafe g :=
    fun q => h.putDev fun n hd hn => ⟨by simpa using hc n hd hn, by simp⟩
  unfold fliIssue
  split
  · exact put _
  split
  · exact (put none).of_dev fun e => dev_with_breakerFail _ _ e
  · exact put _

theorem fliCommand_foffSafe {g : Cfg} {x : Fli} (h : x.FoffSafe g) {d : Device} {c : Sense} (hc : sparesFeeder g d c) :
    (fliCommand x d c).1.FoffSafe g := by
  have pulse : ∀ n, d = .feeder n → g.cls.get n = .protectedClass → (x.dev d).pulse ≠ some .off := by
    rintro n rfl hn
    exact (h n hn).1
  unfold fliCommand
  dsimp only
  split
  · split
    · exact h.putDev fun n hd hn => ⟨pulse n hd hn, by simp⟩
    · exact h.putDev fun n hd hn => ⟨pulse n hd hn, by simpa using hc n hd hn⟩
  · split
    · exact h
    · exact fliIssue_foffSafe h hc

theorem fliPulseEnd_foffSafe {g : Cfg} {x : Fli} (h : x.FoffSafe g) (d : Device) : (fliPulseEnd x d).1.FoffSafe g := by
  have deferred : ∀ n, d = .feeder n → g.cls.get n = .protectedClass → (x.dev d).deferred ≠ some .off := by
    rintro n rfl hn
    exact (h n hn).2
  unfold fliPulseEnd
  dsimp only
  split
  · exact h
  next hd => exact h.putDev fun n e hn => ⟨by simp, deferred n e hn⟩
  next c _ hd =>
    refine fliIssue_foffSafe (h.putDev fun n e hn => ⟨by simp, by simp⟩) fun n e hn hoff => ?_
    exact deferred n e hn (by rw [hd, hoff])

/-- The end of a confirm leaves pulse and deferred command as they are. -/
theorem endConfirm_foffSafe {g : Cfg} {x : Fli} (h : x.FoffSafe g) (d : Device) (b : Bool) :
    Fli.FoffSafe g { x.putDev d { x.dev d with confirm := none } with breakerFail := b } := by
  refine (h.putDev (d := d) (v := { x.dev d with confirm := none }) ?_).of_dev fun e => dev_with_breakerFail _ _ e
  rintro n rfl hn
  exact h n hn

theorem fliFeedback_foffSafe {g : Cfg} {x : Fli} (h : x.FoffSafe g) (d : Device) (b : Bool) (u : List Report) :
    (fliFeedback x d b u).1.FoffSafe g := by
  unfold fliFeedback
  dsimp only
  split
  · exact h
  split
  · exact endConfirm_foffSafe h d _
  · exact h

theorem fliTake_foffSafe {g : Cfg} {x : Fli} (h : x.FoffSafe g) (i : Input) (b : Bool) :
    (fliTake x i b).1.FoffSafe g := by
  have taken : Fli.FoffSafe g { x with inputs := setInput x.inputs i b, valve := valveAfter i b x.valve } := h
  cases i with
  | brk => exact fliFeedback_foffSafe taken _ _ _
  | ffb n => exact fliFeedback_foffSafe taken _ _ _
  | _ => exact taken

theorem fliChange_foffSafe {g : Cfg} {x : Fli} (h : x.FoffSafe g) (i : Input) (b : Bool) :
    (fliChange x i b).1.FoffSafe g := by
  unfold fliChange
  split
  · exact h
  · exact fliTake_foffSafe h i b

/-- Whatever reaches the FLI, an FOFF for a PROTECTED feeder apart, leaves none pulsed or kept. -/
theorem fliHandle_foffSafe {g : Cfg} (m : FliMsg) (s : State) (h : s.fli.FoffSafe g)
    (hm : Report.spares g (.fli m) = true) : (fliHandle m s).1.FoffSafe g := by
  cases m with
  | level i b held =>
      simp only [fliHandle, fliLevel]
      split
      · exact h
      split
      · exact fliChange_foffSafe h i b
      · exact h
  | command d c => exact fliCommand_foffSafe h (sparesFeeder_of_spares hm)
  | pulseEnd d => exact fliPulseEnd_foffSafe h d
  | limit d =>
      simp only [fliHandle, fliLimit]
      split
      · exact h
      · exact endConfirm_foffSafe h d _
  | valve b => exact h
  | auxRow st =>
      simp only [fliHandle]
      split <;> exact h
  | reportKept =>
      simp only [fliHandle, fliReportKept]
      split
      · exact h
      next k rest _ =>
        have kept : Fli.FoffSafe g { s.fli with kept := rest } := h
        exact fliChange_foffSafe kept _ _

section
variable (g : Cfg)

@[simp] theorem confirmedReport_spares (d : Device) (c : Sense) :
    (confirmedReport d c).all (Report.spares g) = true := by cases d <;> rfl

@[simp] theorem failedReport_spares (d : Device) (c : Sense) : (failedReport d c).all (Report.spares g) = true := by
  cases d <;> rfl

@[simp] theorem fliIssue_spares (x : Fli) (d : Device) (c : Sense) :
    (fliIssue x d c).2.all (Report.spares g) = true := by
  unfold fliIssue
  (repeat' split) <;> simp

@[simp] theorem fliFeedback_spares (x : Fli) (d : Device) (b : Bool) (u : List Report)
    (h : u.all (Report.spares g) = true) : (fliFeedback x d b u).2.all (Report.spares g) = true := by
  unfold fliFeedback
  dsimp only
  (repeat' split) <;> simp_all

@[simp] theorem fliChange_spares (x : Fli) (i : Input) (b : Bool) :
    (fliChange x i b).2.all (Report.spares g) = true := by
  unfold fliChange
  split
  · rfl
  · cases i <;> simp [fliTake]

/-- The FLI commands nothing itself. -/
theorem fliHandle_spares (m : FliMsg) (s : State) : (fliHandle m s).2.all (Report.spares g) = true := by
  cases m <;>
    simp only [fliHandle, fliLevel, fliKeep, fliCommand, fliPulseEnd, fliLimit, fliReportKept] <;>
    (repeat' split) <;> simp
end
end Sys2Proof.Machine
end

section
/-! SUPPORT. The Shed Controller: the shed list and the rotation orders. -/

namespace Sys2Proof.Machine

/-! ### The SC: the shed list and the rotation orders (R89 to R91) -/

/-- The shed list holds each feeder once (R91). -/
def Sc.ListSafe (c : Sc) : Prop := (c.shedList.map (·.feeder)).Nodup

/-- The rotation orders name the fitted feeders of their own class alone (R90). -/
def Sc.RotationSafe (g : Cfg) (c : Sc) : Prop :=
  ∀ k, k ≠ FeederClass.protectedClass → ∀ n ∈ c.rotation k, g.fitted.get n = true ∧ g.cls.get n = k

/-- `d` comes of `c` by acts that enter no feeder twice and bring no feeder into a rotation order. -/
def Sc.Leads (c d : Sc) : Prop := (c.ListSafe → d.ListSafe) ∧ ∀ k, ∀ n ∈ d.rotation k, n ∈ c.rotation k

namespace Sc

theorem Leads.refl (c : Sc) : c.Leads c := ⟨id, fun _ _ => id⟩

theorem Leads.trans {a b c : Sc} (h : a.Leads b) (h' : b.Leads c) : a.Leads c :=
  ⟨h'.1 ∘ h.1, fun k n hn => h.2 k n (h'.2 k n hn)⟩

theorem Leads.rotationSafe {g : Cfg} {c d : Sc} (h : c.Leads d) (hc : c.RotationSafe g) : d.RotationSafe g :=
  fun k hk n hn => hc k hk n (h.2 k n hn)

/-- A change of the shed list alone, the other fields of the lists as they are. -/
theorem Leads.of_list {c d : Sc} (hl : c.ListSafe → d.ListSafe) (hs : d.rotShow = c.rotShow)
    (hv : d.rotVendor = c.rotVendor) (ha : d.rotAmenity = c.rotAmenity) : c.Leads d := by
  refine ⟨hl, fun k n hn => ?_⟩
  cases k with
  | showClass => exact (show n ∈ c.rotShow by rw [← hs]; exact hn)
  | vendor => exact (show n ∈ c.rotVendor by rw [← hv]; exact hn)
  | amenity => exact (show n ∈ c.rotAmenity by rw [← ha]; exact hn)
  | protectedClass => exact hn

/-- A change of records and timers. -/
theorem Leads.of_same {c d : Sc} (hl : d.shedList = c.shedList) (hs : d.rotShow = c.rotShow)
    (hv : d.rotVendor = c.rotVendor) (ha : d.rotAmenity = c.rotAmenity) : c.Leads d :=
  .of_list (fun h => by unfold ListSafe; rwa [hl]) hs hv ha

theorem putRec_leads (c : Sc) (n : FeederId) (r : Feeder) : c.Leads (c.putRec n r) := .of_same rfl rfl rfl rfl

end Sc

theorem mem_toTail {l : List FeederId} {n m : FeederId} (h : m ∈ toTail l n) : m ∈ l := by
  unfold toTail at h
  split at h
  next hn =>
    rcases List.mem_append.mp h with h | h
    · exact List.mem_of_mem_filter h
    · rw [List.mem_singleton.mp h]
      simpa using hn
  · exact h

theorem Sc.rotate_leads (c : Sc) (n : FeederId) : c.Leads (c.rotate n) := by
  refine ⟨id, fun k m hm => ?_⟩
  cases k with
  | protectedClass => exact hm
  | _ => exact mem_toTail hm

theorem nodup_enterShed {l : List ShedEntry} (h : (l.map (·.feeder)).Nodup) (n : FeederId) (why : ShedCause) :
    ((enterShed l n why).map (·.feeder)).Nodup := by
  unfold enterShed
  split
  · have same : (l.map fun e => if e.feeder == n then { e with cause := why } else e).map (·.feeder) =
        l.map (·.feeder) := by
      rw [List.map_map]
      exact List.map_congr_left fun e _ => by dsimp only [Function.comp]; split <;> rfl
    rwa [same]
  next hn =>
    have absent : n ∉ l.map (·.feeder) := by simpa using hn
    simpa [List.nodup_append, h] using absent

theorem nodup_enterIfAbsent {l : List ShedEntry} (h : (l.map (·.feeder)).Nodup) (n : FeederId) (why : ShedCause) :
    ((enterIfAbsent l n why).map (·.feeder)).Nodup := by
  unfold enterIfAbsent
  split
  · exact h
  next hn =>
    have entered : enterShed l n why = l ++ [⟨n, why⟩] := if_neg hn
    rw [← entered]
    exact nodup_enterShed h n why

theorem nodup_leaveShed {l : List ShedEntry} (h : (l.map (·.feeder)).Nodup) (n : FeederId) :
    ((leaveShed l n).map (·.feeder)).Nodup := h.sublist (List.filter_sublist.map _)

theorem Sc.enterShed_leads (c : Sc) (n : FeederId) (why : ShedCause) :
    c.Leads { c with shedList := enterShed c.shedList n why } := .of_list (fun h => nodup_enterShed h n why) rfl rfl rfl

theorem Sc.enterIfAbsent_leads (c : Sc) (n : FeederId) (why : ShedCause) :
    c.Leads { c with shedList := enterIfAbsent c.shedList n why } :=
  .of_list (fun h => nodup_enterIfAbsent h n why) rfl rfl rfl

theorem Sc.leaveShed_leads (c : Sc) (n : FeederId) : c.Leads { c with shedList := leaveShed c.shedList n } :=
  .of_list (fun h => nodup_leaveShed h n) rfl rfl rfl

/-- An act of the SC `c` keeps its lists safe, and sheds only feeders its rotation orders name. -/
def Sc.Keeps (c : Sc) (x : Act Sc) : Prop :=
  c.Leads x.1 ∧ ∀ g, c.RotationSafe g → x.2.all (Report.spares g) = true

namespace Sc

theorem Keeps.andThen {c : Sc} {x : Act Sc} {f : Sc → Act Sc} (h : c.Keeps x) (hf : ∀ d : Sc, d.Keeps (f d)) :
    c.Keeps (x.andThen f) :=
  ⟨h.1.trans (hf _).1, fun g hg => by
    simp only [andThen_snd, List.all_append, h.2 g hg, (hf x.1).2 g (h.1.rotationSafe hg), Bool.and_self]⟩

theorem Keeps.of_leads {c d : Sc} {x : Act Sc} (h : d.Keeps x) (hd : c.Leads d) : c.Keeps x :=
  ⟨hd.trans h.1, fun g hg => h.2 g (hd.rotationSafe hg)⟩

theorem Keeps.quiet {c d : Sc} (h : c.Leads d) : c.Keeps (quiet d) := ⟨h, fun _ _ => rfl⟩

theorem Keeps.of_reports {c d : Sc} {rs : List Report} (h : c.Leads d)
    (hr : ∀ g, rs.all (Report.spares g) = true) : c.Keeps (d, rs) := ⟨h, fun g _ => hr g⟩

end Sc

open Sc

theorem scDone_keeps {c d : Sc} (h : c.Leads d) : c.Keeps (scDone c d) :=
  .of_reports h fun g => by split <;> simp

/-- A feeder of a rotation order is of a sheddable class. -/
theorem spares_of_mem_rotation {g : Cfg} {c : Sc} (h : c.RotationSafe g) {k : FeederClass} {n : FeederId}
    (hn : n ∈ c.rotation k) : Report.spares g (.fli (.command (.feeder n) .off)) = true := by
  have hk : k ≠ .protectedClass := by
    rintro rfl
    cases hn
  simp [(h k hk n hn).2, hk]

theorem shedCandidate_mem {o : ClassOrder} {c : Sc} {k : FeederClass} {n : FeederId}
    (h : shedCandidate o c = some (k, n)) : n ∈ c.rotation k := by
  obtain ⟨q, -, hq⟩ := List.exists_of_findSome?_eq_some h
  obtain ⟨m, hm, e⟩ := Option.map_eq_some_iff.mp hq
  obtain ⟨rfl, rfl⟩ := Prod.mk.inj e
  exact List.mem_of_find?_eq_some hm

theorem shedAttempt_keeps (c : Sc) (s : State) : c.Keeps (shedAttempt c s) := by
  unfold shedAttempt
  split
  next k n h =>
    split
    · exact .quiet (.of_same rfl rfl rfl rfl)
    · refine ⟨.of_same rfl rfl rfl rfl, fun g hg => ?_⟩
      simp only [shedOne, List.all_cons, spares_of_mem_rotation hg (shedCandidate_mem h), spares_sc, List.all_nil,
        Bool.and_self]
  · exact .quiet (.of_same rfl rfl rfl rfl)

theorem attemptIf_keeps {c d : Sc} (h : c.Leads d) (s : State) (b : Bool) :
    c.Keeps (if b then shedAttempt d s else quiet d) := by
  split
  · exact (shedAttempt_keeps d s).of_leads h
  · exact .quiet h

theorem overloadTest_leads (c : Sc) (s : State) : c.Leads (overloadTest c s) := by
  unfold overloadTest
  (repeat' split) <;> exact .of_same rfl rfl rfl rfl

theorem confirmWindowEnd_keeps (c : Sc) (s : State) : c.Keeps (confirmWindowEnd c s) := by
  unfold confirmWindowEnd
  split
  · exact .quiet (.refl c)
  · refine Keeps.andThen ?_ fun d => .of_reports (.refl d) fun g => by simp
    split
    · exact (shedAttempt_keeps _ s).of_leads (.of_same rfl rfl rfl rfl)
    · exact .quiet (.of_same rfl rfl rfl rfl)

theorem settleEnd_keeps (c : Sc) : c.Keeps (settleEnd c) := by
  unfold settleEnd
  split
  · exact .quiet (.refl c)
  · exact .of_reports (.of_same rfl rfl rfl rfl) fun g => by simp

theorem deadBusMark_leads (c : Sc) (n : FeederId) : c.Leads (deadBusMark c n) :=
  (putRec_leads c n _).trans (enterShed_leads _ n .deadBus)

theorem foldl_leads {α : Type} (f : Sc → α → Sc) (hf : ∀ (c : Sc) a, c.Leads (f c a)) (l : List α) (c : Sc) :
    c.Leads (l.foldl f c) := by
  induction l generalizing c with
  | nil => exact .refl c
  | cons a l ih => exact (hf c a).trans (ih _)

theorem deadBusShed_keeps (c : Sc) (s : State) : c.Keeps (deadBusShed c s) := by
  refine ⟨(foldl_leads _ deadBusMark_leads _ c).trans (.of_same rfl rfl rfl rfl), fun g hg => ?_⟩
  have foffs : ∀ n ∈ deadBusFeeders s.cfg.order c, Report.spares g (.fli (.command (.feeder n) .off)) = true := by
    intro n hn
    obtain ⟨k, -, hk⟩ := List.mem_flatMap.mp (List.mem_of_mem_filter hn)
    exact spares_of_mem_rotation hg hk
  simpa [deadBusShed] using foffs

theorem restoreTest_keeps (c : Sc) (s : State) : c.Keeps (restoreTest c s) := by
  unfold restoreTest
  split
  · split
    · dsimp only
      split
      · exact .of_reports (.of_same rfl rfl rfl rfl) fun g => by simp
      · exact .quiet (.refl c)
    · exact .quiet (.refl c)
  · exact .quiet (.refl c)

theorem spacingEnd_keeps (c : Sc) : c.Keeps (spacingEnd c) := by
  unfold spacingEnd
  split
  · exact .quiet (.refl c)
  · exact .of_reports (.of_same rfl rfl rfl rfl) fun g => by simp

theorem scConfirmed_keeps (c : Sc) (n : FeederId) (k : Sense) : c.Keeps (scConfirmed c n k) := by
  refine scDone_keeps ?_
  split
  · exact ((putRec_leads c n _).trans (rotate_leads _ n)).trans (leaveShed_leads _ n)
  · exact putRec_leads c n _
  · exact (putRec_leads c n _).trans (enterIfAbsent_leads _ n _)
  · exact putRec_leads c n _
  · exact putRec_leads c n _

theorem scFailed_keeps (c : Sc) (n : FeederId) (k : Sense) : c.Keeps (scFailed c n k) := by
  refine scDone_keeps ?_
  split
  · exact putRec_leads c n _
  · exact putRec_leads c n _
  · exact (putRec_leads c n _).trans (leaveShed_leads _ n)
  · exact (putRec_leads c n _).trans (leaveShed_leads _ n)
  · exact putRec_leads c n _

theorem leaveFailed_leads (c : Sc) (n : FeederId) (why : FailedCause) (b : Bool) : c.Leads (leaveFailed c n why b) := by
  unfold leaveFailed
  dsimp only
  split
  · exact (putRec_leads c n _).trans (enterShed_leads _ n _)
  · exact (putRec_leads c n _).trans (enterShed_leads _ n _)
  · exact putRec_leads c n _
  · exact (putRec_leads c n _).trans (rotate_leads _ n)
  · exact (putRec_leads c n _).trans (rotate_leads _ n)
  · exact ((putRec_leads c n _).trans (rotate_leads _ n)).trans (leaveShed_leads _ n)

theorem scUncommanded_keeps (c : Sc) (n : FeederId) (b : Bool) : c.Keeps (scUncommanded c n b) := by
  refine scDone_keeps ?_
  split
  · exact leaveFailed_leads c n _ _
  · exact ((putRec_leads c n _).trans (rotate_leads _ n)).trans (leaveShed_leads _ n)
  · exact putRec_leads c n _

theorem scChanged_keeps (c : Sc) (s : State) : c.Keeps (scChanged c s) := by
  have tried := attemptIf_keeps (c := c) (d := { c with summary := summaryOf s.cfg c }) (.of_same rfl rfl rfl rfl) s
    c.waiting
  refine ⟨tried.1, fun g hg => ?_⟩
  simp only [scChanged, List.all_append, tried.2 g hg, Bool.and_true]
  split <;> simp

theorem scBusLive_keeps (c : Sc) (s : State) (b : Bool) : c.Keeps (scBusLive c s b) := by
  unfold scBusLive
  split
  · exact (restoreTest_keeps _ s).of_leads (overloadTest_leads c s)
  · exact deadBusShed_keeps c s

theorem scFigures_keeps (c : Sc) (s : State) (power cls : Bool) : c.Keeps (scFigures c s power cls) := by
  have tested : c.Leads (if power then overloadTest c s else c) := by
    split
    · exact overloadTest_leads c s
    · exact .refl c
  exact Keeps.andThen (attemptIf_keeps tested s _) fun d => .of_reports (.refl d) fun g => by split <;> simp

theorem scSecond_keeps (c : Sc) (s : State) : c.Keeps (scSecond c s) :=
  .of_reports (.of_same rfl rfl rfl rfl) fun g => by simp

/-- Whatever reaches the SC keeps its lists safe, and the SC sheds only feeders its rotation orders name. -/
theorem scHandle_keeps (m : ScMsg) (s : State) : s.sc.Keeps (scHandle m s) := by
  unfold scHandle
  dsimp only
  split
  · exact .quiet (.refl _)
  split
  · exact scSecond_keeps _ s
  split
  · exact .quiet (.refl _)
  cases m with
  | busLive b => exact scBusLive_keeps _ s b
  | figures power cls => exact scFigures_keeps _ s power cls
  | handover before =>
      dsimp only
      split
      · exact restoreTest_keeps _ s
      · exact .quiet (.refl _)
  | restoreTest => exact restoreTest_keeps _ s
  | confirmed n k => exact scConfirmed_keeps _ n k
  | failed n k => exact scFailed_keeps _ n k
  | uncommanded n b => exact scUncommanded_keeps _ n b
  | fWindow n => exact .quiet (.of_same rfl rfl rfl rfl)
  | second => exact scSecond_keeps _ s
  | window => exact confirmWindowEnd_keeps _ s
  | settle => exact settleEnd_keeps _
  | spacing => exact spacingEnd_keeps _
  | changed => exact scChanged_keeps _ s
  | endOfStart =>
      exact scBusLive_keeps _ s s.fli.inputs.busLive

end Sys2Proof.Machine
end

section
/-! SUPPORT. The field side is safe after every step (O56). -/

namespace Sys2Proof.Machine

/-! ### Through a working off -/

/-- The four invariants of the field side together. -/
def FieldSafe (s : State) : Prop := ValveSafe s ∧ ShareSafe s ∧ ProtectedSafe s ∧ ShedListSound s

theorem fieldSafe_iff {s : State} : FieldSafe s ↔
    s.fli.ValveSafe ∧ s.du.ShareSafe ∧ (s.fli.FoffSafe s.cfg ∧ s.sc.RotationSafe s.cfg) ∧ s.sc.ListSafe := Iff.rfl

theorem deliver_valveSafe (r : Report) (s : State) (h : ValveSafe s) : ValveSafe (deliver r s).1 := by
  cases r with
  | fli m => exact fliHandle_valveSafe m s h
  | _ => exact h

theorem deliver_shareSafe (r : Report) (s : State) (h : ShareSafe s) : ShareSafe (deliver r s).1 := by
  cases r with
  | du m => exact (duHandle_keeps m s).1 h
  | _ => exact h

theorem deliver_shedListSound (r : Report) (s : State) (h : ShedListSound s) : ShedListSound (deliver r s).1 := by
  cases r with
  | sc m => exact (scHandle_keeps m s).1.1 h
  | _ => exact h

/-- A report that is no FOFF for a PROTECTED feeder keeps them safe, and leads to such reports only. -/
theorem deliver_protectedSafe (r : Report) (s : State) (h : ProtectedSafe s) (hr : r.spares s.cfg = true) :
    ProtectedSafe (deliver r s).1 ∧ (deliver r s).2.all (Report.spares s.cfg) = true := by
  cases r with
  | pcu m => exact ⟨h, pcuHandle_spares _ m s⟩
  | fli m => exact ⟨⟨fliHandle_foffSafe m s h.1 hr, h.2⟩, fliHandle_spares _ m s⟩
  | pt m => exact ⟨h, ptHandle_spares _ m s⟩
  | du m => exact ⟨h, (duHandle_keeps m s).2 _⟩
  | cc m => exact ⟨h, ccHandle_spares _ m s⟩
  | sc m => exact ⟨⟨h.1, (scHandle_keeps m s).1.rotationSafe h.2⟩, (scHandle_keeps m s).2 _ h.2⟩
  | fu m => exact ⟨h, fuHandle_spares _ m s⟩
  | bu m => exact ⟨h, buHandle_spares _ m s⟩
  | lc m => exact ⟨h, lcHandle_spares _ m s⟩
  | sr m => exact ⟨h, srHandle_spares _ m s⟩

/-- What reports of a kind keep is kept by a working off, when such reports lead to such reports only. -/
theorem settle_invariant_of (Inv : State → Prop) (P : Report → Bool)
    (hI : ∀ r s, Inv s → P r = true → Inv (deliver r s).1 ∧ (deliver r s).2.all P = true) (n : Nat)
    (rs : List Report) (s : State) (h : Inv s) (hr : rs.all P = true) : Inv (settle n rs s) := by
  induction n generalizing rs s with
  | zero => exact h
  | succ n ih =>
      cases rs with
      | nil => exact h
      | cons r rest =>
          simp only [List.all_cons, Bool.and_eq_true] at hr
          obtain ⟨kept, told⟩ := hI r s h hr.1
          exact ih _ _ kept (by simp only [List.all_append, told, hr.2, Bool.and_self])

theorem settle_protectedSafe (n : Nat) (rs : List Report) (s : State) (h : ProtectedSafe s)
    (hr : rs.all (Report.spares s.cfg) = true) : ProtectedSafe (settle n rs s) := by
  refine (settle_invariant_of (fun t => t.cfg = s.cfg ∧ ProtectedSafe t) (Report.spares s.cfg) ?_ n rs s
    ⟨rfl, h⟩ hr).2
  rintro r t ⟨hc, ht⟩ hp
  obtain ⟨kept, told⟩ := deliver_protectedSafe r t ht (hc ▸ hp)
  exact ⟨⟨(deliver_cfg r t).trans hc, kept⟩, hc ▸ told⟩

theorem take_fieldSafe {s : State} (h : FieldSafe s) {rs : List Report} (hr : rs.all (Report.spares s.cfg) = true) :
    FieldSafe (s.take rs) := by
  obtain ⟨hv, hs, hp, hl⟩ := h
  exact ⟨settle_invariant _ deliver_valveSafe _ rs s hv, settle_invariant _ deliver_shareSafe _ rs s hs,
    settle_protectedSafe _ rs s hp hr, settle_invariant _ deliver_shedListSound _ rs s hl⟩

/-! ### Through a start -/

/-- The class order names the three sheddable classes. -/
def ClassOrder.Sheds (o : ClassOrder) : Prop := (FeederClass.protectedClass :: o.rising.reverse).Nodup

theorem loadOrder_sheds (a b c : Nat) : (loadOrder a b c).1.Sheds := by
  unfold loadOrder ClassOrder.Sheds
  split <;> decide

theorem scRebuild_listSafe {s : State} (h : s.cfg.order.Sheds) : (scRebuild s).ListSafe := by
  have classes : ∀ k n, n ∈ FeederId.every.filter (fun n => s.cfg.fitted.get n && s.cfg.cls.get n == k) →
      s.cfg.cls.get n = k := by
    intro k n hn
    have := List.of_mem_filter hn
    simp only [Bool.and_eq_true, beq_iff_eq] at this
    exact this.2
  simp only [Sc.ListSafe, scRebuild, List.map_map, Function.comp_def, List.map_id']
  refine List.Nodup.filter _ (List.nodup_flatMap.mpr ⟨fun k _ => ?_, h.imp fun {k q} hkq n hk hq => ?_⟩)
  · exact List.Nodup.filter _ (by decide)
  · exact hkq ((classes k n hk).symm.trans (classes q n hq))

theorem scRebuild_rotationSafe (s : State) : (scRebuild s).RotationSafe s.cfg := by
  intro k hk n hn
  have fits : n ∈ FeederId.every.filter (fun n => s.cfg.fitted.get n && s.cfg.cls.get n == k) := by
    cases k with
    | protectedClass => exact absurd rfl hk
    | _ => exact hn
  simpa using List.of_mem_filter fits

/-- Before step 5 of a start the FLI, the DU and the SC stand at their start values, and the LC is not enabled. -/
def Untouched (s : State) : Prop := s.fli = .start ∧ s.du = .start ∧ s.sc = .start ∧ s.lc.enabled = false

theorem Untouched.fieldSafe {s : State} (h : Untouched s) : FieldSafe s := by
  obtain ⟨hf, hd, hc, -⟩ := h
  rw [fieldSafe_iff, hf, hd, hc]
  refine ⟨.of_closed rfl, .of_zero rfl, ⟨fun n _ => ?_, fun k _ n hn => ?_⟩, List.nodup_nil⟩
  · cases n <;> exact ⟨nofun, nofun⟩
  · cases k <;> cases hn

theorem fresh_untouched (s : State) (p : Phase) : Untouched (s.fresh p) := ⟨rfl, rfl, rfl, rfl⟩

/-- The reports the events inside a start make. -/
def Report.ofEvent : Report → Bool
  | .pcu (.pulse _ _ _) | .fli (.level _ _ _) | .lc (.frame _ _ _) => true
  | _ => false

theorem eventsAfter_ofEvent (inp : StartInputs) (n : Nat) : (eventsAfter inp n).all Report.ofEvent = true := by
  simp only [eventsAfter, List.all_map, List.all_eq_true]
  rintro ⟨k, e⟩ -
  cases e <;> rfl

theorem ofEvent_spares (g : Cfg) {r : Report} (h : r.ofEvent = true) : r.spares g = true := by
  cases r with
  | fli m =>
      cases m with
      | level i b held => rfl
      | _ => simp [Report.ofEvent] at h
  | _ => rfl

theorem eventsAfter_spares (g : Cfg) (inp : StartInputs) (n : Nat) :
    (eventsAfter inp n).all (Report.spares g) = true := by
  have := eventsAfter_ofEvent inp n
  simp only [List.all_eq_true] at this ⊢
  exact fun r hr => ofEvent_spares g (this r hr)

/-- Before step 5 a pulse, a contact change and a frame touch none of these, and nothing is handed on. -/
theorem deliver_untouched {s : State} {k : Nat} (hp : s.phase = .starting k) (hk : k < 5) (h : Untouched s)
    (r : Report) (hr : r.ofEvent = true) : Untouched (deliver r s).1 ∧ (deliver r s).2 = [] := by
  have idle : s.isRunning = false := by simp [State.isRunning, hp]
  obtain ⟨hf, hd, hc, hl⟩ := h
  cases r with
  | pcu m =>
      cases m with
      | pulse c gap active =>
          refine ⟨⟨hf, hd, hc, hl⟩, ?_⟩
          simp only [deliver, pcuHandle, pcuStretch, pcuPulse, idle, Bool.and_false]
          (repeat' split) <;> simp_all
      | window c => simp [Report.ofEvent] at hr
  | fli m =>
      cases m with
      | level i b held =>
          have early : s.pastStep 5 = false := by simp [State.pastStep, hp, hk]
          have quietly : fliHandle (.level i b held) s = quiet s.fli := by simp [fliHandle, fliLevel, early]
          simp only [deliver, quietly]
          exact ⟨⟨hf, hd, hc, hl⟩, rfl⟩
      | _ => simp [Report.ofEvent] at hr
  | lc m =>
      cases m with
      | frame hd' kind p =>
          have quietly : lcHandle (.frame hd' kind p) s = quiet s.lc := by simp [lcHandle, frameEnd, hl]
          simp only [deliver, quietly]
          exact ⟨⟨hf, hd, hc, hl⟩, rfl⟩
      | _ => simp [Report.ofEvent] at hr
  | _ => simp [Report.ofEvent] at hr

theorem take_untouched {s : State} {k : Nat} (hp : s.phase = .starting k) (hk : k < 5) (h : Untouched s)
    {rs : List Report} (hr : rs.all Report.ofEvent = true) : Untouched (s.take rs) := by
  refine (settle_invariant_of (fun t => t.phase = .starting k ∧ Untouched t) Report.ofEvent ?_ _ rs s ⟨hp, h⟩ hr).2
  rintro r t ⟨htp, ht⟩ he
  obtain ⟨kept, told⟩ := deliver_untouched htp hk ht r he
  exact ⟨⟨(deliver_phase r t).trans htp, kept⟩, by rw [told]; rfl⟩

theorem stepConfig_cases (s : State) (image : List Byte) :
    (stepConfig s image).phase = .unusable ∨ (stepConfig s image).cfg.order.Sheds := by
  unfold stepConfig
  split
  · exact .inr (loadOrder_sheds _ _ _)
  · exact .inl rfl

theorem stepRebuild_fieldSafe {s : State} (h : FieldSafe s) (ho : s.cfg.order.Sheds) : FieldSafe (stepRebuild s) := by
  obtain ⟨hv, -, ⟨hp, -⟩, -⟩ := h
  have rebuilt : (duRebuild s).1.ShareSafe := .of_zero rfl
  unfold stepRebuild
  refine take_fieldSafe ?_ ?_
  · exact ⟨hv, rebuilt, ⟨hp, scRebuild_rotationSafe s⟩, scRebuild_listSafe ho⟩
  · simp only [duRebuild]
    split <;> simp

/-- Each step of the start order keeps the field side safe: up to step 4 nothing of it is touched, step 5 finds VALVE
closed, and step 6 goes by the class order loaded at step 2. -/
theorem startStep_fieldSafe (n : Nat) (inp : StartInputs) {s : State} (h : FieldSafe s) (hu : n < 5 → Untouched s)
    (h5 : n = 5 → Untouched s) (ho : n = 6 → s.cfg.order.Sheds) :
    FieldSafe (startStep n inp s) ∧ (n < 5 → Untouched (startStep n inp s)) := by
  have early (hn : Untouched (startStep n inp s)) :
      FieldSafe (startStep n inp s) ∧ (n < 5 → Untouched (startStep n inp s)) := ⟨hn.fieldSafe, fun _ => hn⟩
  unfold startStep at *
  split
  · exact early (fresh_untouched s _)
  · refine early ?_
    have untouched := hu (by decide)
    simp only [stepConfig]
    split <;> exact untouched
  · exact early (hu (by decide))
  · exact early (hu (by decide))
  · obtain ⟨hf, -, -, -⟩ := h5 rfl
    obtain ⟨-, hs, ⟨hp, hr⟩, hl⟩ := h
    exact ⟨⟨Fli.ValveSafe.of_closed (x := { s.fli with inputs := _ }) (by rw [hf]; rfl), hs, ⟨hp, hr⟩, hl⟩,
      fun hn => absurd hn (by decide)⟩
  · exact ⟨stepRebuild_fieldSafe h (ho rfl), fun hn => absurd hn (by decide)⟩
  · exact ⟨take_fieldSafe (by exact h) (buBringUp_spares _ _), fun hn => absurd hn (by decide)⟩
  · exact ⟨take_fieldSafe (by exact h) rfl, fun hn => absurd hn (by decide)⟩
  · exact ⟨take_fieldSafe (by exact h) rfl, fun hn => absurd hn (by decide)⟩
  · exact ⟨h, hu⟩

theorem startStep_cfg {n : Nat} (hn : n ≠ 2) (inp : StartInputs) (s : State) : (startStep n inp s).cfg = s.cfg := by
  unfold startStep
  split
  · rfl
  · exact absurd rfl hn
  · rfl
  · rfl
  · rfl
  · exact take_cfg _ _
  · exact take_cfg _ _
  · exact take_cfg _ _
  · exact take_cfg _ _
  · rfl

/-- Nothing more of a start is done: the image was unusable, or the start is abandoned before step `n`. -/
def StartEnded (inp : StartInputs) (n : Nat) (s : State) : Prop := s.phase = .unusable ∨ abandonedBefore inp n = true

theorem abandonedBefore_succ {inp : StartInputs} {n : Nat} (h : abandonedBefore inp n = true) :
    abandonedBefore inp (n + 1) = true := by
  unfold abandonedBefore at *
  split at h
  next k hk => simp only [decide_eq_true_eq] at *; omega
  · cases h

/-- What holds of a start when step `n` of it, and the events after it, are through. -/
structure StartSafe (inp : StartInputs) (n : Nat) (s : State) : Prop where
  field : FieldSafe s
  untouched : n < 5 → Untouched s
  order : 2 ≤ n → s.cfg.order.Sheds ∨ StartEnded inp (n + 1) s

theorem runStep_startSafe {inp : StartInputs} {n : Nat} {s : State} (h : StartSafe inp n s) :
    StartSafe inp (n + 1) (runStep inp s (n + 1)) := by
  obtain ⟨field, untouched, order⟩ := h
  unfold runStep
  split
  next ended => exact ⟨field, fun hn => untouched (by omega), fun _ => .inr (ended.imp id abandonedBefore_succ)⟩
  next going =>
    have loaded (hn : 2 ≤ n) : s.cfg.order.Sheds := (order hn).resolve_right going
    obtain ⟨stepped, early⟩ := startStep_fieldSafe (n + 1) inp field (fun hn => untouched (by omega))
      (fun hn => untouched (by omega)) (fun hn => loaded (by omega))
    dsimp only
    split
    next hp => exact ⟨stepped, early, fun _ => .inr (.inl hp)⟩
    next hp =>
      refine ⟨take_fieldSafe (by exact stepped) (eventsAfter_spares _ inp _),
        fun hn => take_untouched (by rfl) hn (by exact early hn) (eventsAfter_ofEvent inp _), fun hn => .inl ?_⟩
      rw [take_cfg]
      by_cases h2 : n + 1 = 2
      · rw [h2] at hp ⊢
        exact (stepConfig_cases s inp.image).resolve_left hp
      · exact startStep_cfg h2 inp s ▸ loaded (by omega)

theorem totalsDelivered_spares (g : Cfg) (s : State) : (totalsDelivered s).all (Report.spares g) = true := by
  simp only [totalsDelivered, List.all_flatMap, totalReports_spares, List.all_eq_true, implies_true]

theorem endReports_spares (g : Cfg) (s : State) : (endReports s).all (Report.spares g) = true := by
  simp only [endReports, List.all_append, totalsDelivered_spares, List.all_replicate]
  split <;> rfl

/-- A start leaves the field side safe, whatever went before. -/
theorem startPart_fieldSafe (inp : StartInputs) (s : State) : FieldSafe (startPart inp s) := by
  have begun : StartSafe inp 0 (s.fresh (.starting 0)) :=
    ⟨(fresh_untouched s _).fieldSafe, fun _ => fresh_untouched s _, fun h => absurd h (by decide)⟩
  have through : ∀ k n t, StartSafe inp n t → FieldSafe ((List.range' (n + 1) k).foldl (runStep inp) t) := by
    intro k
    induction k with
    | zero => exact fun n t h => h.field
    | succ k ih => exact fun n t h => ih (n + 1) _ (runStep_startSafe h)
  have steps := through 10 0 _ begun
  unfold startPart
  dsimp only
  split
  · exact take_fieldSafe (by exact steps) (endReports_spares _ _)
  · exact steps

theorem losePower_fieldSafe (s : State) : FieldSafe (losePower s) :=
  Untouched.fieldSafe (s := losePower s) ⟨rfl, rfl, rfl, rfl⟩

/-! ### Every step -/

/-- A command either starts the part or takes its power, and then leaves the field side safe, or reports go to the units,
none of them an FOFF for a PROTECTED feeder. -/
theorem exec_cases (c : Instr) (s t : State) (h : exec c s = .next t) :
    FieldSafe t ∨ ∃ rs, (∀ g, rs.all (Report.spares g) = true) ∧ t = s.run rs := by
  have same : ∃ rs, (∀ g, rs.all (Report.spares g) = true) ∧ s = s.run rs :=
    ⟨[], fun _ => rfl, by simp [State.run]⟩
  cases c with
  | powerOn inp => cases h; exact .inl (startPart_fieldSafe inp _)
  | resetInput inp =>
      cases h
      split
      · exact .inr same
      · exact .inl (startPart_fieldSafe inp _)
  | powerFail => cases h; exact .inl (losePower_fieldSafe s)
  | restartHandover inp =>
      cases h
      split
      · exact .inl (startPart_fieldSafe inp _)
      · exact .inr same
  | _ => cases h; exact .inr ⟨_, fun _ => rfl, rfl⟩

/-- Between two starts an invariant is kept by a command when every report keeps it. -/
theorem run_invariant (Inv : State → Prop) (hI : ∀ r s, Inv s → Inv (deliver r s).1) (rs : List Report) (s : State)
    (h : Inv s) : Inv (s.run rs) := by
  unfold State.run
  split
  · exact settle_invariant Inv hI _ rs s h
  · exact h

/-- Settles O56: each of the four invariants holds after every start, and is kept by every report. -/
theorem stepsKeepTheFieldSafe : Obligations.StepsKeepTheFieldSafe := by
  intro s t h
  obtain ⟨p, u, rfl, ht⟩ : ∃ p u, u = { s with pending := p } ∧
      (FieldSafe t ∨ ∃ rs, (∀ g, rs.all (Report.spares g) = true) ∧ t = State.run u rs) := by
    unfold step at h
    split at h
    · cases h
      exact ⟨s.pending, s, rfl, .inr ⟨[], fun _ => rfl, by simp [State.run]⟩⟩
    · exact ⟨_, _, rfl, exec_cases _ _ _ h⟩
  rcases ht with ⟨hv, hs, hp, hl⟩ | ⟨rs, hrs, rfl⟩
  · exact ⟨fun _ => hv, fun _ => hs, fun _ => hp, fun _ => hl⟩
  · refine ⟨fun h => run_invariant ValveSafe deliver_valveSafe rs _ h,
      fun h => run_invariant ShareSafe deliver_shareSafe rs _ h, fun h => ?_,
      fun h => run_invariant ShedListSound deliver_shedListSound rs _ h⟩
    unfold State.run
    split
    · exact settle_protectedSafe _ rs _ h (hrs _)
    · exact h

end Sys2Proof.Machine
end

section
/-! SUPPORT. The pulse channels: pulses, stretches without a pulse, windows (O13 to O15). -/

namespace Sys2Proof.Machine

/-! ### A pulse -/

theorem isRunning_of_running {s : State} (h : s.phase = .running) : s.isRunning = true := by simp [State.isRunning, h]

theorem pastStep_of_running {s : State} (h : s.phase = .running) (n : Nat) : s.pastStep n = true := by
  simp [State.pastStep, h]

@[simp] theorem Pcu.put_get (p : Pcu) (c : Channel) : p.put c (p.get c) = p := by
  cases c <;> simp [Pcu.put, Pcu.get, quad_put_get]

/-- A stretch at a channel in use, from step 4 on. -/
theorem pcuHandle_pulse {s : State} {c : Channel} (hu : s.cfg.channelInUse c = true) (hp : s.pastStep 4 = true)
    (gap active : Nat) : pcuHandle (.pulse c gap active) s = pcuStretch c gap active s := by
  simp [pcuHandle, hu, hp]

theorem pcuStretch_wide {s : State} {c : Channel} {gap active : Nat}
    (h : pulseWide (s.cfg.chan c) (s.pcu.get c).period gap active = true) :
    pcuStretch c gap active s = pcuPulse c s := by
  simp [pcuStretch, h]

theorem pcuStretch_narrow {s : State} {c : Channel} {gap active : Nat}
    (h : pulseWide (s.cfg.chan c) (s.pcu.get c).period gap active = false) :
    pcuStretch c gap active s = quiet (s.pcu.put c
      { s.pcu.get c with period := activePeriod (s.cfg.chan c) (s.pcu.get c).period gap active }) := by
  simp [pcuStretch, h]

theorem pcuPulse_lp {s : State} (h : s.isRunning = true) :
    pcuPulse .lp s =
      quiet (s.pcu.put .lp { s.pcu.get .lp with period := none, count := (s.pcu.get .lp).count + 1 }) := by
  simp [pcuPulse, Chan.acceptProbe, h]

/-- A pulse short of the prescale value. -/
theorem pcuPulse_remainder {s : State} {c : Channel} (hc : c ≠ .lp)
    (h : (s.pcu.get c).remainder + 1 < (s.cfg.chan c).prescale) :
    pcuPulse c s =
      quiet (s.pcu.put c { s.pcu.get c with period := none, remainder := (s.pcu.get c).remainder + 1 }) := by
  simp [pcuPulse, Chan.accept, hc, h, quiet]

/-- A pulse that completes a count. -/
theorem pcuPulse_count {s : State} {c : Channel} (hc : c ≠ .lp)
    (h : (s.cfg.chan c).prescale ≤ (s.pcu.get c).remainder + 1) :
    pcuPulse c s =
      (s.pcu.put c { s.pcu.get c with
          period := none, remainder := 0, total := (s.pcu.get c).total + BitVec.ofNat 32 (s.cfg.chan c).weight
          count := if s.isRunning then (s.pcu.get c).count + 1 else (s.pcu.get c).count },
        if s.isRunning then totalReports c ((s.pcu.get c).total + BitVec.ofNat 32 (s.cfg.chan c).weight) else []) := by
  simp [pcuPulse, Chan.accept, hc, Nat.not_lt.mpr h]

theorem totalReports_inner (c : Channel) (t : BitVec 32) : (totalReports c t).all Report.inner = true := by
  cases c <;> rfl

theorem figureReports_inner (c : Channel) : (figureReports c).all Report.inner = true := by
  cases c <;> rfl

theorem pcuHandle_inner (m : PcuMsg) (s : State) : (pcuHandle m s).2.all Report.inner = true := by
  cases m with
  | pulse c gap active =>
      simp only [pcuHandle, pcuStretch, pcuPulse]
      (repeat' split) <;> simp [totalReports_inner]
  | window c =>
      simp only [pcuHandle, pcuWindow]
      split
      · exact figureReports_inner c
      · rfl

/-- What the PCU hands over leaves its channels as it left them. -/
theorem run_pcu {s : State} (h : s.isUp = true) (m : PcuMsg) : (s.run [.pcu m]).pcu = (pcuHandle m s).1 := by
  rw [run_one h]
  exact settle_inner_pcu _ _ _ (pcuHandle_inner m s)

/-- An act of the PCU that hands nothing over. -/
theorem run_pcu_quiet {s : State} (h : s.isUp = true) {m : PcuMsg} {p : Pcu} (hm : pcuHandle m s = quiet p) :
    s.run [.pcu m] = { s with pcu := p } := by
  rw [run_one h, deliver_pcu, hm]
  exact handOn_nil _ _

/-- One accepted pulse adds 1 to counts times prescale plus remainder. -/
theorem accept_conserves (g : ChanCfg) (windowed : Bool) (x : Chan) (h : x.remainder < g.prescale) :
    (if (x.accept g windowed).2 then g.prescale else 0) + (x.accept g windowed).1.remainder = x.remainder + 1 ∧
      (x.accept g windowed).1.remainder < g.prescale := by
  unfold Chan.accept
  split
  · simp
    omega
  · simp
    omega

/-- No pulse is lost (R2). -/
theorem acceptMany_conserves (g : ChanCfg) (windowed : Bool) (n : Nat) (x : Chan) (h : x.remainder < g.prescale) :
    (Chan.acceptMany g windowed n x).1 * g.prescale + (Chan.acceptMany g windowed n x).2.remainder =
      n + x.remainder ∧ (Chan.acceptMany g windowed n x).2.remainder < g.prescale := by
  induction n generalizing x with
  | zero => simp [Chan.acceptMany, h]
  | succ n ih =>
      obtain ⟨one, below⟩ := accept_conserves g windowed x h
      obtain ⟨many, last⟩ := ih _ below
      refine ⟨?_, last⟩
      have counts : (Chan.acceptMany g windowed (n + 1) x).1 * g.prescale =
          (if (x.accept g windowed).2 then g.prescale else 0) +
            (Chan.acceptMany g windowed n (x.accept g windowed).1).1 * g.prescale := by
        simp only [Chan.acceptMany, Nat.add_mul]
        split <;> simp
      calc (Chan.acceptMany g windowed (n + 1) x).1 * g.prescale + (Chan.acceptMany g windowed (n + 1) x).2.remainder
          = (if (x.accept g windowed).2 then g.prescale else 0) + (n + (x.accept g windowed).1.remainder) := by
            rw [counts, Nat.add_assoc, ← many]; rfl
        _ = n + 1 + x.remainder := by omega

/-- What a pulse of a channel in use does, once the part runs: the channel after it, and what is handed on. -/
theorem pcuHandle_pulse_running {s : State} {c : Channel} {gap active : Nat} (hp : s.phase = .running)
    (hu : s.cfg.channelInUse c = true) (hw : pulseWide (s.cfg.chan c) (s.pcu.get c).period gap active = true) :
    pcuHandle (.pulse c gap active) s = pcuPulse c s := by
  rw [pcuHandle_pulse hu (pastStep_of_running hp 4), pcuStretch_wide hw]

/-- Settles O13: one lemma per kind of pulse, and the conservation by induction on the pulses. -/
theorem pulsesArePrescaled : Obligations.PulsesArePrescaled := by
  refine ⟨fun s c gap active hp hu hw => ?_, fun g windowed n x _ h => acceptMany_conserves g windowed n x h,
    fun s c gap active hp hu hw => ?_, fun s t => ⟨rfl, rfl, rfl, rfl, fun n => rfl⟩⟩
  · have after : (s.run [.pcu (.pulse c gap active)]).pcu = (pcuPulse c s).1 := by
      rw [run_pcu (isRunning_isUp hp), pcuHandle_pulse_running hp hu hw]
    have running := isRunning_of_running hp
    refine ⟨_, rfl, ?_, fun d hd => ?_, ?_, fun hc hr => ?_, fun hc hr => ?_⟩
    · rw [after, pcuPulse]
      split <;> simp
    · rw [after, pcuPulse]
      split <;> simp [hd]
    · rintro rfl
      rw [after, pcuPulse_lp running]
      simp
    · rw [after, pcuPulse_remainder hc hr]
      simp
    · rw [after, pcuPulse_count hc hr]
      simp [running]
  · have told : (deliver (.pcu (.pulse c gap active)) s).2 = (pcuPulse c s).2 := by
      rw [deliver_pcu, pcuHandle_pulse_running hp hu hw]
    have running := isRunning_of_running hp
    dsimp only
    rw [told]
    have lp_told : c = .lp → (pcuPulse c s).2 = [] := by
      rintro rfl
      rw [pcuPulse_lp running]; rfl
    refine ⟨?_, fun hr => ?_⟩
    · rintro (hc | hr)
      · exact lp_told hc
      · by_cases hc : c = .lp
        · exact lp_told hc
        · rw [pcuPulse_remainder hc hr]; rfl
    · have counted : c ≠ .lp → (pcuPulse c s).2 =
          totalReports c ((s.pcu.get c).total + BitVec.ofNat 32 (s.cfg.chan c).weight) := by
        intro hc
        rw [pcuPulse_count hc hr]
        simp [running]
      refine ⟨?_, ?_, ?_, ?_⟩
      · rintro rfl
        rw [counted nofun]
        exact List.Perm.refl _
      · rintro rfl
        exact counted nofun
      · rintro rfl
        exact counted nofun
      · rintro n rfl
        exact counted nofun

/-! ### Stretches without a pulse, pulses inside a start -/

theorem exec_pulse_quiet {s : State} {c : Channel} {gap active : Nat} {p : Pcu} (h : s.isUp = true)
    (hm : pcuHandle (.pulse c gap active) s = quiet p) :
    exec (.pulseAccepted c gap active) s = .next { s with pcu := p } :=
  congrArg Host.Outcome.next (run_pcu_quiet h hm)

theorem pulseWide_iff (g : ChanCfg) (before : Option Nat) (gap active : Nat) :
    pulseWide g before gap active = true ↔ ∃ w, activePeriod g before gap active = some w ∧ g.minWidth ≤ w := by
  unfold pulseWide
  cases activePeriod g before gap active <;> simp

/-- A narrow gap behind a period that has made its pulse: the stretch belongs to that period and changes nothing. -/
theorem exec_pulse_none {s : State} {c : Channel} {gap active : Nat} (hp : s.phase = .running)
    (hu : s.cfg.channelInUse c = true)
    (hn : activePeriod (s.cfg.chan c) (s.pcu.get c).period gap active = none) :
    exec (.pulseAccepted c gap active) s = .next s := by
  have narrow : pulseWide (s.cfg.chan c) (s.pcu.get c).period gap active = false := by simp [pulseWide, hn]
  have before : (s.pcu.get c).period = none := by
    unfold activePeriod at hn
    split at hn
    · cases hn
    · simpa using hn
  refine (exec_pulse_quiet (isRunning_isUp hp) (p := s.pcu) ?_)
  rw [pcuHandle_pulse hu (pastStep_of_running hp 4), pcuStretch_narrow narrow, hn]
  have same : { s.pcu.get c with period := none } = s.pcu.get c := by rw [← before]
  rw [same, Pcu.put_get]

/-- A pulse leaves its channel's period closed. -/
theorem pcuPulse_period (c : Channel) (s : State) : ((pcuPulse c s).1.get c).period = none := by
  unfold pcuPulse
  split
  next h => simp [h, Chan.acceptProbe]
  · simp only [Pcu.get_put_same, Chan.accept]
    split <;> rfl

/-- Settles O14: a stretch of each kind, and a pulse from step 4 of a start on. -/
theorem pulsesWithoutEffect : Obligations.PulsesWithoutEffect := by
  refine ⟨fun s c gap active hu => ?_, fun s c gap active hp hu => ?_, fun s k c gap active hp hk hc hu hw => ?_⟩
  · by_cases up : s.isUp = true
    · exact exec_pulse_quiet up (p := s.pcu) (by simp [pcuHandle, hu])
    · exact congrArg Host.Outcome.next (run_down (by simpa using up) _)
  · have taken : ∀ gap active, pcuHandle (.pulse c gap active) s = pcuStretch c gap active s :=
      pcuHandle_pulse hu (pastStep_of_running hp 4)
    refine ⟨pulseWide_iff _ _ _ _, fun hn => exec_pulse_none hp hu hn, fun w hw hs => ?_, fun w t hw hs ht => ?_⟩
    · have hw' : activePeriod (s.cfg.chan c) (s.pcu.get c).period gap active = some w := hw
      have narrow : pulseWide (s.cfg.chan c) (s.pcu.get c).period gap active = false := by
        simp [pulseWide, hw', hs]
      refine exec_pulse_quiet (isRunning_isUp hp) ?_
      rw [taken, pcuStretch_narrow narrow, hw']
    · have wide : pulseWide (s.cfg.chan c) (s.pcu.get c).period gap active = true :=
        (pulseWide_iff _ _ _ _).mpr ⟨w, hw, hs⟩
      obtain rfl : s.run [.pcu (.pulse c gap active)] = t := Host.Outcome.next.inj ht
      have cfg : (s.run [.pcu (.pulse c gap active)]).cfg = s.cfg := by rw [run_up (isRunning_isUp hp), take_cfg]
      have phase : (s.run [.pcu (.pulse c gap active)]).phase = .running := by
        rw [run_up (isRunning_isUp hp), take_phase, hp]
      have closed : ((s.run [.pcu (.pulse c gap active)]).pcu.get c).period = none := by
        rw [run_pcu (isRunning_isUp hp), taken, pcuStretch_wide wide]
        exact pcuPulse_period c s
      refine ⟨closed, fun gap' active' hg => exec_pulse_none phase (cfg ▸ hu) ?_⟩
      simp [cfg, closed, activePeriod, Nat.not_le.mpr hg]
  · have up : s.isUp = true := by simp [State.isUp, hp]
    have past : s.pastStep 4 = true := by simp [State.pastStep, hp, hk]
    have starting : s.isRunning = false := by simp [State.isRunning, hp]
    refine exec_pulse_quiet up ?_
    rw [pcuHandle_pulse hu past, pcuStretch_wide hw]
    split
    next hr => exact pcuPulse_remainder hc hr
    next hr =>
      rw [pcuPulse_count hc (Nat.not_lt.mp hr)]
      simp [starting, quiet]

/-! ### Windows -/

theorem clampTo_zero (hi n : Nat) : clampTo 0 hi n = min hi n := by
  unfold clampTo
  (repeat' split) <;> omega

theorem pcuHandle_window {s : State} {c : Channel} (hp : s.phase = .running) (hu : s.cfg.channelInUse c = true) :
    pcuHandle (.window c) s = pcuWindow c s := by
  simp [pcuHandle, hu, isRunning_of_running hp]

@[simp] theorem Pcu.get_with_level (p : Pcu) (l : Option Nat) (c : Channel) : ({ p with level := l } : Pcu).get c = p.get c := by
  cases c <;> rfl

/-- The channel after its window's expiry. -/
theorem pcuWindow_get_same (c : Channel) (s : State) : (pcuWindow c s).1.get c =
    { s.pcu.get c with
      latched := (s.pcu.get c).count, count := 0, figure := windowFigure (s.cfg.chan c) c (s.pcu.get c).count } := by
  simp only [pcuWindow]
  split <;> simp

theorem pcuWindow_get_other {c d : Channel} (s : State) (h : d ≠ c) : (pcuWindow c s).1.get d = s.pcu.get d := by
  simp only [pcuWindow]
  split <;> simp [h]

theorem pcuWindow_level (c : Channel) (s : State) : (pcuWindow c s).1.level =
    if c = .lp then
      some (probeLevel s.cfg.fE s.cfg.fF s.cfg.tankDl (s.cfg.chan c).window (s.pcu.get c).count)
    else s.pcu.level := by
  simp only [pcuWindow]
  split <;> simp

/-- Settles O15: the expiry of a window, what it hands on, and what the FU makes of it. -/
theorem windowsLatchTheCount : Obligations.WindowsLatchTheCount := by
  refine ⟨fun s c hp hu => ?_, fun s t c hp hu ht => ?_, fun s c gap active up => ?_, fun s => ⟨rfl, ?_, ?_⟩⟩
  · have after : (s.run [.pcu (.window c)]).pcu = (pcuWindow c s).1 := by
      rw [run_pcu (isRunning_isUp hp), pcuHandle_window hp hu]
    refine ⟨_, rfl, fun d hd => ?_, ?_⟩
    · rw [after, pcuWindow_get_other s hd]
    · rw [after, pcuWindow_get_same, pcuWindow_level]
      refine ⟨rfl, rfl, rfl, rfl, ?_, ?_, fun hc => if_neg hc, ?_, ?_⟩
      · rintro (rfl | ⟨f, rfl⟩) <;> exact clampTo_zero _ _
      · rintro rfl
        rfl
      · rintro rfl hf
        simp [probeLevel, hf, clampTo_zero, Cfg.tankDl]
      · rintro rfl hf
        simp [probeLevel, Nat.lt_asymm hf, clampTo_zero, Cfg.tankDl]
  · obtain rfl : s.run [.pcu (.window c)] = t := Host.Outcome.next.inj ht
    have handed : s.run [.pcu (.window c)] =
        State.handOn { s with pcu := (s.run [.pcu (.window c)]).pcu } 1 (figureReports c) := by
      rw [run_pcu (isRunning_isUp hp), run_one (isRunning_isUp hp), deliver_pcu, pcuHandle_window hp hu]
      rfl
    refine ⟨?_, ?_, ?_, ?_, ?_⟩
    · rintro rfl
      exact handed
    · rintro rfl
      exact handed
    · rintro rfl
      exact handed
    · rintro rfl
      exact handed
    · rintro n rfl
      exact handed
  · exact congrArg Host.Outcome.next (run_one up _)
  · intro p hw hl
    simp [deliver, fuHandle, levelWindow, hw, hl]
  · rintro (hw | hl)
    · simp [deliver, fuHandle, levelWindow, hw]
    · simp [deliver, fuHandle, levelWindow, hl]

end Sys2Proof.Machine
end

section
/-! SUPPORT. The commands to a device and the outputs (O17, O18). -/

namespace Sys2Proof.Machine

/-! ### A report to the FLI -/

/-- A command that reaches the FLI: the FLI acts, and what it reports is handed on. -/
theorem run_fli {s : State} (h : s.isUp = true) {m : FliMsg} {x : Fli} {rs : List Report}
    (hm : fliHandle m s = (x, rs)) : s.run [.fli m] = State.handOn { s with fli := x } 1 rs := by
  rw [run_one h, deliver_fli, hm]

theorem run_fli_quiet {s : State} (h : s.isUp = true) {m : FliMsg} {x : Fli} (hm : fliHandle m s = quiet x) :
    s.run [.fli m] = { s with fli := x } := by
  rw [run_fli h hm, handOn_nil]

theorem breakerFailAfter_eq (d : Device) (b old : Bool) :
    breakerFailAfter d b old = if d = .breaker then b else old := by cases d <;> rfl

@[simp] theorem Fli.putDev_putDev (x : Fli) (d : Device) (v w : Dev) : (x.putDev d v).putDev d w = x.putDev d w := by
  cases d <;> simp [Fli.putDev]

/-! ### Commands to a device -/

theorem fliIssue_genset (x : Fli) (c : Sense) : fliIssue x .genset c = quiet (x.putDev .genset ⟨some c, none, none⟩) := rfl

/-- The feedback is not at the target: the confirm runs. -/
theorem fliIssue_away {x : Fli} {d : Device} {c : Sense} {b : Bool} (h : feedback x.inputs d = some b)
    (hb : b ≠ c.target) : fliIssue x d c = quiet (x.putDev d ⟨some c, none, some c⟩) := by
  simp [fliIssue, h, hb]

/-- The feedback is at the target already: the command is confirmed at once. -/
theorem fliIssue_there {x : Fli} {d : Device} {c : Sense} (h : feedback x.inputs d = some c.target) :
    fliIssue x d c =
      ({ x.putDev d ⟨some c, none, none⟩ with breakerFail := if d = .breaker then false else x.breakerFail },
        confirmedReport d c) := by
  simp [fliIssue, h, breakerFailAfter_eq]

/-- Settles O17: the end of a pulse, with the deferred command issued as `fliIssue` does. -/
theorem pulseEndIssuesTheDeferred : Obligations.PulseEndIssuesTheDeferred := by
  intro s d up
  have void (x : Fli) (h : fliPulseEnd s.fli d = quiet x) : exec (.pulseEnd d) s = .next { s with fli := x } :=
    congrArg Host.Outcome.next (run_fli_quiet up h)
  have issued (p c : Sense) (hp : (s.fli.dev d).pulse = some p) (hd : (s.fli.dev d).deferred = some c) :
      fliPulseEnd s.fli d = fliIssue (s.fli.putDev d { s.fli.dev d with pulse := none, deferred := none }) d c := by
    simp [fliPulseEnd, hp, hd]
  refine ⟨fun hp => void s.fli ?_, fun p hp hd => void _ ?_, fun p c hp hd hg => void _ ?_,
    fun p c b hp hd hf hb => void _ ?_, fun p c hp hd hf => ?_⟩
  · simp [fliPulseEnd, hp]
  · simp [fliPulseEnd, hp, hd]
  · rw [issued p c hp hd]
    subst hg
    simp [fliIssue_genset]
  · rw [issued p c hp hd, fliIssue_away (by simpa using hf) hb]
    simp
  · refine congrArg Host.Outcome.next (run_fli up ?_)
    rw [fliHandle, issued p c hp hd, fliIssue_there (by simpa using hf)]
    simp

@[simp] theorem fliIssue_aux (x : Fli) (d : Device) (c : Sense) : (fliIssue x d c).1.aux = x.aux := by
  unfold fliIssue
  (repeat' split) <;> simp

@[simp] theorem fliChange_aux (x : Fli) (i : Input) (b : Bool) : (fliChange x i b).1.aux = x.aux := by
  have feedback_aux : ∀ (y : Fli) (d : Device) (u : List Report), (fliFeedback y d b u).1.aux = y.aux := by
    intro y d u
    simp only [fliFeedback]
    (repeat' split) <;> simp
  unfold fliChange
  split
  · rfl
  · cases i <;> simp [fliTake, feedback_aux]

/-- Only an aux row changes AUX. -/
theorem fliHandle_aux (m : FliMsg) (s : State) (h : ∀ st, m ≠ .auxRow st) : (fliHandle m s).1.aux = s.fli.aux := by
  cases m with
  | auxRow st => exact absurd rfl (h st)
  | _ =>
      simp only [fliHandle, fliLevel, fliKeep, fliCommand, fliPulseEnd, fliLimit, fliReportKept]
      (repeat' split) <;> simp

/-- A command issued: its pulse runs, and its confirm when the feedback stands away from the target. -/
theorem fliIssue_dev_same (x : Fli) (d : Device) (c : Sense) : (fliIssue x d c).1.dev d =
    ⟨some c, none, if feedback x.inputs d = some (!c.target) then some c else none⟩ := by
  unfold fliIssue
  split
  next h => simp [h]
  next level h =>
    split
    next e =>
      rw [dev_with_breakerFail, Fli.dev_putDev_same]
      simp [h, e]
    next e =>
      have away : level = !c.target := Bool.eq_not_of_ne e
      simp [h, away]

theorem fliIssue_dev_other (x : Fli) {d e : Device} (c : Sense) (h : e ≠ d) : (fliIssue x d c).1.dev e = x.dev e := by
  unfold fliIssue
  split
  · simp [h]
  split
  · rw [dev_with_breakerFail, Fli.dev_putDev_other _ _ h]
  · simp [h]

/-- A command leaves the other devices, the inputs, VALVE and AUX alone. -/
theorem fliCommand_frame (x : Fli) (d : Device) (c : Sense) :
    (∀ e, e ≠ d → (fliCommand x d c).1.dev e = x.dev e) ∧ (fliCommand x d c).1.inputs = x.inputs ∧
      (fliCommand x d c).1.valve = x.valve ∧ (fliCommand x d c).1.aux = x.aux := by
  obtain ⟨valve, inputs, -⟩ := fliCommand_keeps_valve x d c
  refine ⟨fun e he => ?_, inputs, valve, ?_⟩
  · simp only [fliCommand]
    (repeat' split) <;> simp [he, fliIssue_dev_other]
  · simp only [fliCommand]
    (repeat' split) <;> simp

theorem feederFailure_iff (s : State) : s.feederFailure = true ↔
    ∃ n, s.cfg.fitted.get n = true ∧ (s.sc.recs.get n).failed.isSome = true := by
  simp only [State.feederFailure, List.any_eq_true, Bool.and_eq_true]
  exact ⟨fun ⟨n, _, h⟩ => ⟨n, h⟩, fun ⟨n, h⟩ => ⟨n, by cases n <;> decide, h⟩⟩

theorem fliHandle_auxRow {s : State} (h : s.pastStep 9 = true) (st : Handover) :
    fliHandle (.auxRow st) s = quiet { s.fli with aux := s.cfg.aux.getD st.code 0 } := by
  simp [fliHandle, h]

/-- Settles O18: a command by the pulse and the confirm that run, and the outputs. -/
theorem commandsToADevice : Obligations.CommandsToADevice := by
  refine ⟨fun x d c => ⟨fun hp => ?_, fun p hp hc => ?_, fun hp hc => ?_, fun hp hc => ?_, fliCommand_frame x d c⟩,
    fun s d c => ?_, fun s => ⟨rfl, ?_⟩, fun s st => ⟨fun h => ?_, fun h hr => ?_, fun inp hs => ?_, fun m hm => ?_⟩⟩
  · simp [fliCommand, hp]
  · simp [fliCommand, hp, hc]
  · simp [fliCommand, hp, hc]
  · have issued : fliCommand x d c = fliIssue x d c := by simp [fliCommand, hp, hc]
    rw [issued, fliIssue_dev_same]
    exact ⟨rfl, rfl, rfl⟩
  · simp [State.commandOutput]
  · simp only [State.alertOutput, Bool.or_eq_true, beq_iff_eq, feederFailure_iff, or_assoc]
  · have past : s.pastStep 9 = true := by
      rcases h with h | ⟨k, h, hk⟩
      · exact pastStep_of_running h 9
      · simp [State.pastStep, h, hk]
    simp [deliver, fliHandle_auxRow past]
  · have early : s.pastStep 9 = false := by
      unfold State.pastStep
      split
      next hp => exact absurd hp hr
      next k hp => simpa using h k hp
      all_goals rfl
    simp [deliver, fliHandle, early]
  · refine ⟨?_, rfl⟩
    subst hs
    simp [startStep, stepAux, take_cons, deliver, fliHandle, State.pastStep]
  · exact fliHandle_aux m s hm

end Sys2Proof.Machine
end

section
/-! SUPPORT. The contact inputs (O16). -/

namespace Sys2Proof.Machine

/-! ### Levels at the inputs -/

/-- A level held for 20 ms at an input in use of a part that runs is found at the input. -/
theorem fliHandle_level_held {s : State} (hp : s.phase = .running) {i : Input} {held : Nat} (hh : 20 ≤ held)
    (hu : s.cfg.inputInUse i = true) (b : Bool) : fliHandle (.level i b held) s = fliChange s.fli i b := by
  simp [fliHandle, fliLevel, hu, Nat.not_lt.mpr hh, pastStep_of_running hp, isRunning_of_running hp]

theorem fliHandle_level_void {s : State} {i : Input} {held : Nat}
    (h : held < 20 ∨ s.cfg.inputInUse i = false ∨ s.pastStep 5 = false) (b : Bool) :
    fliHandle (.level i b held) s = quiet s.fli := by
  rcases h with h | h | h <;> simp [fliHandle, fliLevel, h]

/-- Between step 5 and the end of start-up a level held is kept. -/
theorem fliHandle_level_kept {s : State} {k : Nat} (hp : s.phase = .starting k) (hk : 5 ≤ k) {i : Input} {held : Nat}
    (hh : 20 ≤ held) (hu : s.cfg.inputInUse i = true) (b : Bool) :
    fliHandle (.level i b held) s = fliKeep s.fli i b := by
  simp [fliHandle, fliLevel, hu, Nat.not_lt.mpr hh, State.pastStep, State.isRunning, hp, hk]

theorem fliChange_new {x : Fli} {i : Input} {b : Bool} (h : inputLevel x.inputs i ≠ b) :
    fliChange x i b = fliTake x i b := if_neg h

@[simp] theorem fliFeedback_inner (x : Fli) (d : Device) (b : Bool) (u : List Report)
    (h : u.all Report.inner = true) : (fliFeedback x d b u).2.all Report.inner = true := by
  simp only [fliFeedback]
  split
  · exact h
  split
  · exact all_inner_of_plain (confirmedReport_plain _ _)
  · rfl

/-- The report of a changed input is one the units make among themselves. -/
theorem fliTake_inner (x : Fli) (i : Input) (b : Bool) : (fliTake x i b).2.all Report.inner = true := by
  cases i with
  | brk => exact fliFeedback_inner _ _ _ _ rfl
  | ffb n => exact fliFeedback_inner _ _ _ _ rfl
  | _ => rfl

section
variable {s : State} {i : Input} {b : Bool} {held : Nat} (hp : s.phase = .running) (hh : 20 ≤ held)
  (hu : s.cfg.inputInUse i = true) (hn : inputLevel s.fli.inputs i ≠ b)
include hp hh hu hn

/-- The command of a held new level, by what `fliTake` makes of it. -/
theorem exec_inputChange : exec (.inputChange i b held) s =
    .next (State.handOn { s with fli := (fliTake s.fli i b).1 } 1 (fliTake s.fli i b).2) := by
  refine congrArg Host.Outcome.next (run_fli (isRunning_isUp hp) ?_)
  rw [fliHandle_level_held hp hh hu, fliChange_new hn]

theorem exec_inputChange_of {x : Fli} {rs : List Report} (ht : fliTake s.fli i b = (x, rs)) :
    exec (.inputChange i b held) s = .next (State.handOn { s with fli := x } 1 rs) := by
  rw [exec_inputChange hp hh hu hn, ht]

end

/-- What a changed input hands on leaves the inputs, the channels, the peer table and the clock alone, and VALVE safe. -/
theorem handOn_taken (s : State) (i : Input) (b : Bool) :
    let t := State.handOn { s with fli := (fliTake s.fli i b).1 } 1 (fliTake s.fli i b).2
    t.fli.inputs = setInput s.fli.inputs i b ∧ t.pcu = s.pcu ∧ t.pt.view = s.pt.view ∧
      ((fliTake s.fli i b).1.ValveSafe → t.fli.ValveSafe) := by
  have inner := fliTake_inner s.fli i b
  exact ⟨(settle_inner_inputs _ _ _ inner).trans (fliTake_inputs _ _ _), settle_inner_pcu _ _ _ inner,
    settle_inner_pt _ _ _ inner, fun h => settle_invariant ValveSafe deliver_valveSafe _ _ _ h⟩

/-- FILL KEY gone off or HIGH LEVEL gone active, VALVE stays closed through all that follows. -/
theorem handOn_taken_valve (s : State) {i : Input} {b : Bool}
    (h : i = .fillKey ∧ b = false ∨ i = .highLevel ∧ b = true) :
    (State.handOn { s with fli := (fliTake s.fli i b).1 } 1 (fliTake s.fli i b).2).fli.valve = false := by
  obtain ⟨inputs, -, -, safe⟩ := handOn_taken s i b
  have closed : (fliTake s.fli i b).1.valve = false := by
    rcases h with ⟨rfl, rfl⟩ | ⟨rfl, rfl⟩ <;> simp [valveAfter]
  refine Bool.eq_false_iff.mpr fun open_ => ?_
  obtain ⟨key, high, -⟩ := safe (.of_closed closed) open_
  rw [inputs] at key high
  rcases h with ⟨rfl, rfl⟩ | ⟨rfl, rfl⟩
  · cases key
  · cases high

/-- The feedback of a device and what it is told as, when no confirm runs for it and when one completes. -/
def IsFeedback (i : Input) (b : Bool) (d : Device) (told : Report) (ok : Sense → Report) : Prop :=
  (i = .brk ∧ d = .breaker ∧ told = .du (.uncommanded b) ∧ ∀ c, ok c = .du (.confirmed c)) ∨
    ∃ n, i = .ffb n ∧ d = .feeder n ∧ told = .sc (.uncommanded n b) ∧ ∀ c, ok c = .sc (.confirmed n c)

section
variable {x : Fli} {i : Input} {b : Bool} {d : Device} {told : Report} {ok : Sense → Report}

theorem IsFeedback.fliTake (h : IsFeedback i b d told ok) (x : Fli) :
    fliTake x i b = fliFeedback { x with inputs := setInput x.inputs i b } d b [told] := by
  rcases h with ⟨rfl, rfl, rfl, -⟩ | ⟨n, rfl, rfl, rfl, -⟩ <;> rfl

theorem IsFeedback.confirmedReport (h : IsFeedback i b d told ok) (c : Sense) : confirmedReport d c = [ok c] := by
  rcases h with ⟨rfl, rfl, rfl, hk⟩ | ⟨n, rfl, rfl, rfl, hk⟩ <;> rw [hk c] <;> rfl

theorem dev_with_inputs (x : Fli) (l : Levels) (d : Device) : ({ x with inputs := l } : Fli).dev d = x.dev d := by
  cases d <;> rfl

theorem fliFeedback_none {u : List Report} (h : (x.dev d).confirm = none) : fliFeedback x d b u = (x, u) := by
  simp [fliFeedback, h]

theorem fliFeedback_away {u : List Report} {c : Sense} (h : (x.dev d).confirm = some c) (hb : b ≠ c.target) :
    fliFeedback x d b u = quiet x := by
  simp [fliFeedback, h, hb]

theorem fliFeedback_there {u : List Report} {c : Sense} (h : (x.dev d).confirm = some c) (hb : b = c.target) :
    fliFeedback x d b u =
      ({ x.putDev d { x.dev d with confirm := none } with
        breakerFail := if d = .breaker then false else x.breakerFail }, Machine.confirmedReport d c) := by
  simp [fliFeedback, h, hb, breakerFailAfter_eq]
end

/-! ### Kept changes, and VALVE -/

theorem valveAfter_eq (i : Input) (b v : Bool) :
    valveAfter i b v = (v && !(i == .fillKey && !b || i == .highLevel && b)) := by
  cases i <;> cases b <;> simp [valveAfter]

theorem contact_of_last {x : Fli} {i : Input} {b : Bool} {before after : List (Input × Bool)}
    (h : x.kept = before ++ (i, b) :: after) (ha : ∀ c, (i, c) ∉ after) : x.contact i = b := by
  have later : after.reverse.find? (fun k => k.1 == i) = none := by
    rw [List.find?_eq_none]
    rintro ⟨j, c⟩ hk hj
    obtain rfl : j = i := by simpa using hj
    exact ha c (List.mem_reverse.mp hk)
  simp [Fli.contact, h, later]

theorem contact_of_not_kept {x : Fli} {i : Input} (h : ∀ c, (i, c) ∉ x.kept) : x.contact i = inputLevel x.inputs i := by
  have none_kept : x.kept.reverse.find? (fun k => k.1 == i) = none := by
    rw [List.find?_eq_none]
    rintro ⟨j, c⟩ hk hj
    obtain rfl : j = i := by simpa using hj
    exact h c (List.mem_reverse.mp hk)
  simp [Fli.contact, none_kept]

/-- Settles O16: what `fliTake` makes of each input; VALVE stays closed since `ValveSafe` is kept by every report. -/
theorem heldLevelsAreTaken : Obligations.HeldLevelsAreTaken := by
  refine ⟨fun s i b held hp => ⟨fun h => ?_, fun hh hu hn => ?_, fun d told ok hd hh hu hn => ?_⟩,
    fun s i b held hp hh hu hn => ?_, fun s k i b held hp => ⟨fun h => ?_, fun hk hh hu => ?_⟩,
    fun s i b rest => ⟨fun hk => ?_, fun hk hl => ?_, fun hk hp hu => ?_, ⟨_, _, rfl⟩, rfl⟩,
    fun s i b before after => ⟨contact_of_kept_nil _ _, contact_of_last, contact_of_not_kept⟩, fun s => ⟨?_, ?_⟩⟩
  · refine congrArg Host.Outcome.next (run_fli_quiet (isRunning_isUp hp) (x := s.fli) ?_)
    by_cases hl : inputLevel s.fli.inputs i = b
    · by_cases hv : held < 20 ∨ s.cfg.inputInUse i = false
      · exact fliHandle_level_void (hv.imp id .inl) b
      · simp only [not_or, Nat.not_lt, Bool.not_eq_false] at hv
        rw [fliHandle_level_held hp hv.1 hv.2]
        exact if_pos hl
    · exact fliHandle_level_void (h.imp id fun h => .inl (h.resolve_left hl)) b
  · obtain ⟨inputs, pcu, pt, -⟩ := handOn_taken s i b
    refine ⟨_, exec_inputChange hp hh hu hn, ?_, fun j hj => ?_, pcu, pt, ?_, ?_, ?_⟩
    · rw [inputs, inputLevel_setInput_same]
    · rw [inputs, inputLevel_setInput_other _ _ hj]
    · exact fun hi hb => handOn_taken_valve s (.inl ⟨hi, hb⟩)
    · exact fun hi hb => handOn_taken_valve s (.inr ⟨hi, hb⟩)
    · rintro rfl
      exact handOn_nil _ 1
  · have told_as : IsFeedback i b d told ok := hd
    have taken := told_as.fliTake s.fli
    refine ⟨fun hc => ?_, fun c hc hb => ?_, fun c hc hb => ?_⟩
    · rw [← dev_with_inputs _ (setInput s.fli.inputs i b)] at hc
      exact exec_inputChange_of hp hh hu hn (taken.trans (fliFeedback_none hc))
    · rw [← dev_with_inputs _ (setInput s.fli.inputs i b)] at hc
      rw [exec_inputChange_of hp hh hu hn (taken.trans (fliFeedback_away hc hb)), handOn_nil]
    · rw [← dev_with_inputs _ (setInput s.fli.inputs i b)] at hc
      rw [exec_inputChange_of hp hh hu hn (taken.trans (fliFeedback_there hc hb)), told_as.confirmedReport,
        dev_with_inputs]
  · have taken {x : Fli} {rs : List Report} (h : fliTake s.fli i b = (x, rs)) :=
      exec_inputChange_of hp hh hu hn h
    refine ⟨?_, ?_, ?_, ?_, ?_, ?_, ?_, ?_⟩ <;> rintro rfl <;> exact taken rfl
  · have up : s.isUp = true := by simp [State.isUp, hp]
    refine congrArg Host.Outcome.next (run_fli_quiet up (x := s.fli) (fliHandle_level_void ?_ b))
    rcases h with h | h | h
    · exact .inr (.inr (by simp [State.pastStep, hp, h]))
    · exact .inl h
    · exact .inr (.inl h)
  · have up : s.isUp = true := by simp [State.isUp, hp]
    refine congrArg Host.Outcome.next (run_fli_quiet up ?_)
    rw [fliHandle_level_kept hp hk hh hu, fliKeep, valveAfter_eq]
  · simp [deliver, fliHandle, fliReportKept, hk]
  · simp [deliver, fliHandle, fliReportKept, fliChange, hk, hl]
  · have reported : fliHandle .reportKept s = fliChange { s.fli with kept := rest } i b := by
      simp [fliHandle, fliReportKept, hk]
    have held : fliHandle (.level i b 20) { s with fli := { s.fli with kept := rest } } =
        fliChange { s.fli with kept := rest } i b :=
      fliHandle_level_held (by exact hp) (Nat.le_refl 20) (by exact hu) b
    rw [deliver_fli, deliver_fli, reported, held]
  · simp only [deliver, fliHandle, Fli.mayFill, quiet, Bool.true_and]
    have order : (s.fli.inputs.fillKey && s.fli.contact .fillKey && !s.fli.inputs.highLevel &&
        !s.fli.contact .highLevel && s.cfg.tankFitted) = (s.cfg.tankFitted && s.fli.inputs.fillKey &&
        s.fli.contact .fillKey && !s.fli.inputs.highLevel && !s.fli.contact .highLevel) := by
      simp only [Bool.and_comm _ s.cfg.tankFitted, Bool.and_assoc]
    rw [order]
  · rfl

end Sys2Proof.Machine
end

section
/-! SUPPORT. Confirm limits, and the feeders' results and hand operations (O19). -/

namespace Sys2Proof.Machine

/-! ### Results of a feeder's commands, and hand operations -/

@[simp] theorem scDone_fst (c d : Sc) : (scDone c d).1 = d := rfl

/-- Where the rotation orders stand as before, each class has its order. -/
theorem Sc.rotation_same {c d : Sc} (hs : d.rotShow = c.rotShow) (hv : d.rotVendor = c.rotVendor)
    (ha : d.rotAmenity = c.rotAmenity) (q : FeederClass) : d.rotation q = c.rotation q := by
  cases q with
  | showClass => exact hs
  | vendor => exact hv
  | amenity => exact ha
  | protectedClass => rfl

theorem toTail_eq (l : List FeederId) (n : FeederId) :
    toTail l n = if n ∈ l then l.filter (· != n) ++ [n] else l := by
  simp [toTail]

/-- Where `n` has been moved to the tail of the orders that name it (R90). -/
theorem Sc.rotation_rotated {c d : Sc} {n : FeederId} (hs : d.rotShow = toTail c.rotShow n)
    (hv : d.rotVendor = toTail c.rotVendor n) (ha : d.rotAmenity = toTail c.rotAmenity n) (q : FeederClass) :
    d.rotation q = if n ∈ c.rotation q then (c.rotation q).filter (· != n) ++ [n] else c.rotation q := by
  cases q with
  | showClass => exact hs.trans (toTail_eq _ n)
  | vendor => exact hv.trans (toTail_eq _ n)
  | amenity => exact ha.trans (toTail_eq _ n)
  | protectedClass => rfl

theorem enterShed_eq (l : List ShedEntry) (n : FeederId) (why : ShedCause) : enterShed l n why =
    if l.any (·.feeder == n) then l.map fun e => if e.feeder = n then ⟨n, why⟩ else e else l ++ [⟨n, why⟩] := by
  unfold enterShed
  refine if_congr Iff.rfl (List.map_congr_left fun e _ => ?_) rfl
  by_cases h : e.feeder = n
  · subst h; simp
  · simp [h]

theorem any_leaveShed (l : List ShedEntry) (n : FeederId) : (leaveShed l n).any (·.feeder == n) = false := by
  simp [leaveShed]

/-- The record of feeder `n` alone is replaced, its position and failed cause as given, its kW and its seconds kept. -/
def Sc.Moved (c y : Sc) (n : FeederId) (closed : Bool) (failed : Option FailedCause) : Prop :=
  (∀ m, m ≠ n → y.recs.get m = c.recs.get m) ∧ (y.recs.get n).closed = closed ∧ (y.recs.get n).failed = failed ∧
    (y.recs.get n).lastKw = (c.recs.get n).lastKw ∧ (y.recs.get n).energised = (c.recs.get n).energised

theorem Sc.Moved.of_put {c y : Sc} {n : FeederId} {closed : Bool} {failed : Option FailedCause} {r : Feeder}
    (h : y.recs = c.recs.put n r) (hr : r.closed = closed ∧ r.failed = failed ∧ r.lastKw = (c.recs.get n).lastKw ∧
      r.energised = (c.recs.get n).energised) : c.Moved y n closed failed := by
  unfold Moved
  rw [h, Quad.get_put_same]
  exact ⟨fun m hm => Quad.get_put_other _ _ hm, hr⟩

theorem scConfirmed_moved (c : Sc) (n : FeederId) (k : Sense) :
    c.Moved (scConfirmed c n k).1 n (decide (k = .on)) (c.recs.get n).failed := by
  simp only [scConfirmed, scDone_fst]
  split <;> exact .of_put rfl ⟨rfl, rfl, rfl, rfl⟩

section
variable {c : Sc} {n : FeederId}

/-- A confirmed FON (R103). -/
theorem scConfirmed_fon (h : (c.recs.get n).inFlight = some .fon) : (scConfirmed c n .on).1 =
    { (c.putRec n { (c.recs.get n).move true with inFlight := none }).rotate n with
      shedList := leaveShed c.shedList n } := by
  simp [scConfirmed, h]

theorem scConfirmed_on (h : (c.recs.get n).inFlight ≠ some .fon) :
    (scConfirmed c n .on).1 = c.putRec n ((c.recs.get n).move true) := by
  simp only [scConfirmed, scDone_fst]

/-- A confirmed FOFF of an overload shed (R97). -/
theorem scConfirmed_overload (h : (c.recs.get n).inFlight = some .foffOverload) : (scConfirmed c n .off).1 =
    { c.putRec n { (c.recs.get n).move false with inFlight := none } with
      shedList := enterIfAbsent c.shedList n .overload } := by
  simp [scConfirmed, h]

theorem scConfirmed_deadBus (h : (c.recs.get n).inFlight = some .foffDeadBus) :
    (scConfirmed c n .off).1 = c.putRec n { (c.recs.get n).move false with inFlight := none } := by
  simp [scConfirmed, h]

theorem scConfirmed_off (h : (c.recs.get n).inFlight = none ∨ (c.recs.get n).inFlight = some .fon) :
    (scConfirmed c n .off).1 = c.putRec n ((c.recs.get n).move false) := by
  rcases h with h | h <;> simp [scConfirmed, h]

/-- The record after a failed command: its position as it was, some failed cause. -/
theorem scFailed_recs (c : Sc) (n : FeederId) (k : Sense) : ∃ f why,
    (scFailed c n k).1.recs = c.recs.put n { c.recs.get n with inFlight := f, failed := some why } := by
  simp only [scFailed, scDone_fst]
  split <;> exact ⟨_, _, rfl⟩

/-- A failed FON (R103). -/
theorem scFailed_fon (h : (c.recs.get n).inFlight = some .fon) : (scFailed c n .on).1 =
    c.putRec n { c.recs.get n with inFlight := none, failed := some .restore } := by
  simp [scFailed, h]

/-- A failed FOFF of an overload shed (R97). -/
theorem scFailed_overload (h : (c.recs.get n).inFlight = some .foffOverload) : (scFailed c n .off).1 =
    { c.putRec n { c.recs.get n with inFlight := none, failed := some .overload } with
      shedList := leaveShed c.shedList n } := by
  simp [scFailed, h]

/-- A failed FOFF of a dead-bus shed (R98). -/
theorem scFailed_deadBus (h : (c.recs.get n).inFlight = some .foffDeadBus) : (scFailed c n .off).1 =
    { c.putRec n { c.recs.get n with inFlight := none, failed := some .deadBus } with
      shedList := leaveShed c.shedList n } := by
  simp [scFailed, h]

/-- The record after a hand operation (R104, R105): moved, and FAILED no longer. -/
theorem scUncommanded_recs (c : Sc) (n : FeederId) (b : Bool) : (scUncommanded c n b).1.recs =
    c.recs.put n { (c.recs.get n).move b with failed := none } := by
  simp only [scUncommanded, scDone_fst]
  split
  · simp only [leaveFailed]
    split <;> rfl
  next h => simp [Feeder.move, h]
  next h => simp [Feeder.move, h]

theorem scUncommanded_moved (c : Sc) (n : FeederId) (b : Bool) : c.Moved (scUncommanded c n b).1 n b none :=
  .of_put (scUncommanded_recs c n b) ⟨rfl, rfl, rfl, rfl⟩

/-- A hand closing (R105). -/
theorem scUncommanded_closed (h : (c.recs.get n).failed = none) : (scUncommanded c n true).1 =
    { (c.putRec n ((c.recs.get n).move true)).rotate n with shedList := leaveShed c.shedList n } := by
  simp [scUncommanded, h]

/-- A hand opening (R105). -/
theorem scUncommanded_opened (h : (c.recs.get n).failed = none) :
    (scUncommanded c n false).1 = c.putRec n ((c.recs.get n).move false) := by
  simp [scUncommanded, h]

/-- A FAILED feeder moved by hand (R104). -/
theorem scUncommanded_failed {why : FailedCause} (h : (c.recs.get n).failed = some why) (b : Bool) :
    (scUncommanded c n b).1 = leaveFailed c n why b := by
  simp [scUncommanded, h]
end

/-- Settles O19: the confirm limit by `fliLimit`, the feeder by one lemma per result of a command and hand operation. -/
theorem confirmLimitFailsTheCommand : Obligations.ConfirmLimitFailsTheCommand := by
  refine ⟨fun s d up => ⟨fun hc => ?_, fun c hc => ?_⟩, fun c n k => ?_, fun c n => ⟨fun k => ?_, fun b => ?_⟩⟩
  · exact congrArg Host.Outcome.next (run_fli_quiet up (x := s.fli) (by simp [fliHandle, fliLimit, hc]))
  · refine congrArg Host.Outcome.next (run_fli up ?_)
    simp [fliHandle, fliLimit, hc, breakerFailAfter_eq]
  · obtain ⟨f, why, hr⟩ := scFailed_recs c n k
    refine ⟨by rw [hr]; simp, fun m hm => by rw [hr]; simp [hm], ?_, ?_, ?_, fun b => ?_⟩
    · rintro hf rfl
      simp [scFailed_fon hf, Sc.status]
    · rintro hf rfl
      simp [scFailed_overload hf, Sc.status, Sc.listed, any_leaveShed]
    · rintro hf rfl
      simp [scFailed_deadBus hf, Sc.status, Sc.listed, any_leaveShed]
    · dsimp only
      rw [scUncommanded_recs]
      simp [Feeder.move]
  · refine ⟨scConfirmed_moved c n k, ?_, ?_, ?_, ?_, ?_⟩
    · rintro rfl hf
      rw [scConfirmed_fon hf]
      exact ⟨by simp, rfl, Sc.rotation_rotated rfl rfl rfl⟩
    · rintro rfl hf
      rw [scConfirmed_on hf]
      exact ⟨by simp [Feeder.move], rfl, Sc.rotation_same rfl rfl rfl⟩
    · rintro rfl hf
      rw [scConfirmed_overload hf]
      exact ⟨by simp, Sc.rotation_same rfl rfl rfl, rfl⟩
    · rintro rfl hf
      rw [scConfirmed_deadBus hf]
      exact ⟨by simp, rfl, Sc.rotation_same rfl rfl rfl⟩
    · rintro rfl hf
      rw [scConfirmed_off hf]
      exact ⟨by simp [Feeder.move], rfl, Sc.rotation_same rfl rfl rfl⟩
  · refine ⟨scUncommanded_moved c n b, by rw [scUncommanded_recs]; simp [Feeder.move], ?_, ?_, ?_, ?_, ?_, ?_, ?_⟩
    · rintro hf rfl
      rw [scUncommanded_closed hf]
      exact ⟨rfl, Sc.rotation_rotated rfl rfl rfl⟩
    · rintro hf rfl
      rw [scUncommanded_opened hf]
      exact ⟨rfl, Sc.rotation_same rfl rfl rfl⟩
    · rintro hf rfl
      rw [scUncommanded_failed hf]
      exact ⟨enterShed_eq _ n .overload, Sc.rotation_same rfl rfl rfl⟩
    · rintro hf rfl
      rw [scUncommanded_failed hf]
      exact ⟨enterShed_eq _ n .deadBus, Sc.rotation_same rfl rfl rfl⟩
    · rintro hf rfl
      rw [scUncommanded_failed hf]
      exact ⟨rfl, Sc.rotation_same rfl rfl rfl⟩
    · rintro (hf | hf) rfl <;>
      · rw [scUncommanded_failed hf]
        exact ⟨rfl, Sc.rotation_rotated rfl rfl rfl⟩
    · rintro hf rfl
      rw [scUncommanded_failed hf]
      exact ⟨rfl, Sc.rotation_rotated rfl rfl rfl⟩

end Sys2Proof.Machine
end

section
/-! SUPPORT. The open interval: what is booked, and the band in force. -/

namespace Sys2Proof.Machine

/-! ### What is booked into the open interval -/

theorem satAdd_eq_min (max a b : Nat) : satAdd max a b = min max (a + b) := by
  simp only [satAdd]; split <;> omega

theorem unitsBetween_lt (held t : BitVec 32) : unitsBetween held t < 2 ^ 32 := (t - held).isLt

/-- The units of a total are far fewer than the reports one agenda can hold. -/
theorem two_mul_unitsBetween_lt (held t : BitVec 32) : 2 * unitsBetween held t < settleLimit - 2 := by
  have := unitsBetween_lt held t
  simp only [settleLimit]
  omega

theorem handOn_seTotal (s : State) (t : BitVec 32) (h : s.bu.interval.setE ≤ max40) :
    s.handOn 1 [.bu (.seTotal t)] =
      let u := min (unitsBetween s.bu.heldSe t) (max40 - s.bu.interval.setE)
      { s with
        bu := { s.bu with heldSe := t, interval := { s.bu.interval with setE := s.bu.interval.setE + u } }
        store := s.store.booked { s.bu.interval with setE := s.bu.interval.setE + 1 } u } := by
  rw [handOn_cons _ _ _ (by omega)]
  exact settle_seUnits _ _ { s with bu := { s.bu with heldSe := t } } h (two_mul_unitsBetween_lt _ _)

theorem handOn_fTotal_none (s : State) (n : FeederId) (t : BitVec 32) (h : s.bu.interval.feeders.get n = none) :
    s.handOn 1 [.bu (.fTotal n t)] = { s with bu := { s.bu with heldF := s.bu.heldF.put n t } } := by
  rw [handOn_cons _ _ _ (by omega)]
  exact settle_fUnits_none n _ _ { s with bu := { s.bu with heldF := s.bu.heldF.put n t } } h
    (two_mul_unitsBetween_lt _ _)

theorem handOn_fTotal_some (s : State) (n : FeederId) (t : BitVec 32) {a : FeederAcc}
    (ha : s.bu.interval.feeders.get n = some a) (he : a.e ≤ max32) :
    s.handOn 1 [.bu (.fTotal n t)] =
      let u := min (unitsBetween (s.bu.heldF.get n) t) (max32 - a.e)
      let raised (j : Nat) : Interval :=
        { s.bu.interval with feeders := s.bu.interval.feeders.put n (some { a with e := a.e + j }) }
      { s with
        bu := { s.bu with heldF := s.bu.heldF.put n t, interval := raised u }
        store := s.store.booked (raised 1) u } := by
  rw [handOn_cons _ _ _ (by omega)]
  exact settle_fUnits n a _ _ { s with bu := { s.bu with heldF := s.bu.heldF.put n t } } ha he
    (two_mul_unitsBetween_lt _ _)

theorem bookSet_succ (b : Bu) (k : Nat) :
    (bookSet b (k + 1)).1 =
      { b with interval := { b.interval with setE := min max40 (b.interval.setE + 1) } } := by
  simp only [bookSet, bookUnit, withInterval, Act.andThen, satAdd_eq_min]

theorem bookFeeder_succ (b : Bu) (n : FeederId) (k : Nat) :
    (bookFeeder b n (k + 1)).1 =
      { b with interval := onFeeder b.interval n fun a => { a with e := min max32 (a.e + 1) } } := by
  simp only [bookFeeder, bookUnit, withInterval, Act.andThen, satAdd_eq_min]

theorem onFeeder_get_same (i : Interval) (n : FeederId) (h : FeederAcc → FeederAcc) :
    (onFeeder i n h).feeders.get n = (i.feeders.get n).map h := Quad.get_put_same ..

theorem onFeeder_get_other (i : Interval) {n m : FeederId} (h : FeederAcc → FeederAcc) (hm : m ≠ n) :
    (onFeeder i n h).feeders.get m = i.feeders.get m := Quad.get_put_other _ _ hm

/-! ### The band in force -/

theorem FeederId.mem_every (n : FeederId) : n ∈ FeederId.every := by cases n <;> decide

theorem FeederId.index_injective : Function.Injective FeederId.index := by
  intro m n h
  cases m <;> cases n <;> simp_all [FeederId.index]

/-- Band `q` does not start later than band `j`, and has no higher index where they start together (R148). -/
def NotLater (bands : Quad Band) (q j : FeederId) : Prop :=
  (bands.get q).start < (bands.get j).start ∨ ((bands.get q).start = (bands.get j).start ∧ q.index ≤ j.index)

/-- `j` is a band in use that `ok` admits, and no other such band is later (R148). -/
def LatestBand (bands : Quad Band) (ok : Band → Bool) (j : FeederId) : Prop :=
  (bands.get j).inUse = true ∧ ok (bands.get j) = true ∧
    ∀ q, (bands.get q).inUse = true → ok (bands.get q) = true → NotLater bands q j

/-- The latest admitted band among those seen, if there is one. -/
def LatestSeen (bands : Quad Band) (ok : Band → Bool) (seen : List FeederId) : Option FeederId → Prop
  | none => ∀ q ∈ seen, (bands.get q).inUse = true → ok (bands.get q) = false
  | some j => (bands.get j).inUse = true ∧ ok (bands.get j) = true ∧
      ∀ q ∈ seen, (bands.get q).inUse = true → ok (bands.get q) = true → NotLater bands q j

theorem laterBand_skips {bands : Quad Band} {ok : Band → Bool} {i : FeederId} (best : Option FeederId)
    (h : ((bands.get i).inUse && ok (bands.get i)) = false) : laterBand bands ok best i = best := by
  simp [laterBand, h]

theorem laterBand_none {bands : Quad Band} {ok : Band → Bool} {i : FeederId}
    (h : ((bands.get i).inUse && ok (bands.get i)) = true) : laterBand bands ok none i = some i := by
  simp only [laterBand, h, if_true]

theorem laterBand_some {bands : Quad Band} {ok : Band → Bool} {i : FeederId} (j : FeederId)
    (h : ((bands.get i).inUse && ok (bands.get i)) = true) :
    laterBand bands ok (some j) i =
      if (bands.get j).start ≤ (bands.get i).start then some i else some j := by
  simp only [laterBand, h, if_true]

theorem latestSeen_laterBand {bands : Quad Band} {ok : Band → Bool} {seen : List FeederId} {best : Option FeederId}
    {i : FeederId} (h : LatestSeen bands ok seen best) (hi : ∀ q ∈ seen, q.index < i.index) :
    LatestSeen bands ok (seen ++ [i]) (laterBand bands ok best i) := by
  have split (P : FeederId → Prop) (hs : ∀ q ∈ seen, P q) (hP : P i) : ∀ q ∈ seen ++ [i], P q := fun q hq => by
    rcases List.mem_append.1 hq with hq | hq
    · exact hs q hq
    · exact (List.mem_singleton.1 hq) ▸ hP
  cases hA : (bands.get i).inUse && ok (bands.get i) with
  | false =>
      rw [laterBand_skips best hA]
      cases best with
      | none => exact split _ h (by simpa using hA)
      | some j =>
          obtain ⟨hu, ho, hl⟩ := h
          exact ⟨hu, ho, split _ hl fun hu' ho' => by simp [hu', ho'] at hA⟩
  | true =>
      obtain ⟨hui, hoi⟩ : (bands.get i).inUse = true ∧ ok (bands.get i) = true := by simpa using hA
      cases best with
      | none =>
          rw [laterBand_none hA]
          exact ⟨hui, hoi, split _ (fun q hq hu ho => by simp [h q hq hu] at ho) fun _ _ => .inr ⟨rfl, le_rfl⟩⟩
      | some j =>
          obtain ⟨hu, ho, hl⟩ := h
          rw [laterBand_some j hA]
          split
          · refine ⟨hui, hoi, split _ (fun q hq huq hoq => ?_) fun _ _ => .inr ⟨rfl, le_rfl⟩⟩
            have := hl q hq huq hoq
            have := hi q hq
            simp only [NotLater] at *
            omega
          · exact ⟨hu, ho, split _ hl fun _ _ => .inl (by omega)⟩

theorem latestSeen_foldl {bands : Quad Band} {ok : Band → Bool} (l seen : List FeederId) {best : Option FeederId}
    (h : LatestSeen bands ok seen best) (hl : (seen ++ l).Pairwise fun p q => p.index < q.index) :
    LatestSeen bands ok (seen ++ l) (l.foldl (laterBand bands ok) best) := by
  induction l generalizing seen best with
  | nil => simpa using h
  | cons i l ih =>
      rw [List.append_cons] at hl ⊢
      have hi : ∀ q ∈ seen, q.index < i.index := fun q hq =>
        (List.pairwise_append.1 (List.pairwise_append.1 hl).1).2.2 q hq i (List.mem_singleton.2 rfl)
      exact ih (seen ++ [i]) (latestSeen_laterBand h hi) hl

/-- The latest band in use that `ok` admits. -/
def latestBand (bands : Quad Band) (ok : Band → Bool) : Option FeederId :=
  FeederId.every.foldl (laterBand bands ok) none

theorem latestSeen_every (bands : Quad Band) (ok : Band → Bool) :
    LatestSeen bands ok FeederId.every (latestBand bands ok) :=
  latestSeen_foldl FeederId.every [] (fun _ h => nomatch h) (by decide)

theorem latestBand_eq_none_iff (bands : Quad Band) (ok : Band → Bool) :
    latestBand bands ok = none ↔ ∀ q, (bands.get q).inUse = true → ok (bands.get q) = false := by
  have h := latestSeen_every bands ok
  cases hb : latestBand bands ok with
  | none => rw [hb] at h; simpa using fun q => h q (FeederId.mem_every q)
  | some j =>
      rw [hb] at h
      obtain ⟨hu, ho, _⟩ := h
      simpa using ⟨j, hu, ho⟩

theorem latestBand_eq_some {bands : Quad Band} {ok : Band → Bool} {j : FeederId} (h : LatestBand bands ok j) :
    latestBand bands ok = some j := by
  obtain ⟨hu, ho, hl⟩ := h
  have hs := latestSeen_every bands ok
  cases hb : latestBand bands ok with
  | none => simp [(latestBand_eq_none_iff bands ok).1 hb j hu] at ho
  | some k =>
      rw [hb] at hs
      obtain ⟨huk, hok, hlk⟩ := hs
      have hjk := hlk j (FeederId.mem_every j) hu ho
      have hkj := hl k huk hok
      have : k.index = j.index := by simp only [NotLater] at hjk hkj; omega
      exact congrArg some (FeederId.index_injective this)

theorem bandInForce_eq (bands : Quad Band) (x : Nat) :
    bandInForce bands x = (latestBand bands fun b => decide (b.start ≤ x)).or (latestBand bands fun _ => true) := by
  simp only [bandInForce, latestBand]
  cases FeederId.every.foldl (laterBand bands fun b => decide (b.start ≤ x)) none <;> rfl

theorem bandInForce_of_started {bands : Quad Band} {x : Nat} {j : FeederId}
    (h : LatestBand bands (fun b => decide (b.start ≤ x)) j) : bandInForce bands x = some j := by
  rw [bandInForce_eq, latestBand_eq_some h]; rfl

theorem bandInForce_of_none_started {bands : Quad Band} {x : Nat} {j : FeederId}
    (hn : ∀ q, (bands.get q).inUse = true → x < (bands.get q).start) (h : LatestBand bands (fun _ => true) j) :
    bandInForce bands x = some j := by
  have : latestBand bands (fun b => decide (b.start ≤ x)) = none :=
    (latestBand_eq_none_iff _ _).2 fun q hq => by simpa using hn q hq
  rw [bandInForce_eq, this, latestBand_eq_some h]; rfl

theorem bandInForce_eq_none_iff (bands : Quad Band) (x : Nat) :
    bandInForce bands x = none ↔ ∀ j, (bands.get j).inUse = false := by
  simp only [bandInForce_eq, Option.or_eq_none_iff, latestBand_eq_none_iff]
  constructor
  · rintro ⟨_, h⟩ j
    simpa using h j
  · exact fun h => ⟨fun q hq => by simp [h q] at hq, fun q hq => by simp [h q] at hq⟩

theorem takeBand_of_bandInForce {g : Cfg} {v : Nat} {j : FeederId} (h : bandInForce g.bands (minuteOfDay v) = some j) :
    takeBand g v = some ⟨j.index, (g.bands.get j).m, (g.bands.get j).s, (g.bands.get j).g⟩ := by
  simp only [takeBand, h, Option.map_some]

theorem takeBand_eq_none_iff (g : Cfg) (v : Nat) : takeBand g v = none ↔ ∀ j, (g.bands.get j).inUse = false := by
  rw [takeBand, Option.map_eq_none_iff, bandInForce_eq_none_iff]

end Sys2Proof.Machine
end

section
/-! SUPPORT. Boundaries and the close of an interval. -/

namespace Sys2Proof.Machine

/-! ### End points -/

/-- `w` is a boundary: a whole number of interval lengths into its day, or the start of a band in use (R143). -/
def IsBoundary (g : Cfg) (w : Nat) : Prop :=
  w % 86400 % (g.intervalLen * 60) = 0 ∨ ∃ n, (g.bands.get n).inUse = true ∧ w % 86400 = 60 * (g.bands.get n).start

/-- `e` is the first value after `v` for which `P` holds. -/
def FirstAfter (P : Nat → Prop) (v e : Nat) : Prop := v < e ∧ P e ∧ ∀ w, v < w → P w → e ≤ w

theorem firstAfter_nextTimeOfDay (v : Nat) {tod : Nat} (h : tod < 86400) :
    FirstAfter (fun w => w % 86400 = tod) v (nextTimeOfDay v tod) := by
  unfold FirstAfter nextTimeOfDay
  dsimp only
  split <;> refine ⟨by omega, by omega, fun w => by omega⟩

theorem FirstAfter.congr {P Q : Nat → Prop} {v e : Nat} (h : FirstAfter P v e) (hPQ : ∀ w, P w ↔ Q w) :
    FirstAfter Q v e := by
  obtain rfl : P = Q := funext fun w => propext (hPQ w)
  exact h

theorem firstAfter_multiple (v : Nat) {step : Nat} (h0 : 0 < step) :
    FirstAfter (fun w => w % step = 0) v ((v / step + 1) * step) := by
  refine ⟨?_, by simp, fun w hw hm => ?_⟩
  · rw [Nat.mul_comm]
    exact Nat.lt_mul_div_succ v h0
  · obtain ⟨k, rfl⟩ := Nat.dvd_of_mod_eq_zero hm
    rw [Nat.mul_comm step k] at hw ⊢
    exact Nat.mul_le_mul_right _ ((Nat.div_lt_iff_lt_mul h0).2 hw)

/-- As the length divides the day, its multiples in a day are its multiples: the one at the end of a day is the start of
the next. -/
theorem firstAfter_nextMultiple (v : Nat) {len : Nat} (h0 : 0 < len * 60) (h : len * 60 ∣ 86400) :
    FirstAfter (fun w => w % 86400 % (len * 60) = 0) v (nextMultiple v len) := by
  have e : nextMultiple v len = (v / (len * 60) + 1) * (len * 60) := by
    have hv := Nat.div_add_mod' v (len * 60)
    have hd := Nat.div_add_mod' (v % 86400) (len * 60)
    rw [Nat.mod_mod_of_dvd v h] at hd
    have := Nat.mod_le v 86400
    simp only [nextMultiple, Nat.add_mul, Nat.one_mul]
    omega
  rw [e]
  exact (firstAfter_multiple v h0).congr fun w => by rw [Nat.mod_mod_of_dvd w h]

theorem firstAfter_min {P Q : Nat → Prop} {v a b : Nat} (ha : FirstAfter P v a) (hb : FirstAfter Q v b) :
    FirstAfter (fun w => P w ∨ Q w) v (min a b) := by
  obtain ⟨hva, hP, hla⟩ := ha
  obtain ⟨hvb, hQ, hlb⟩ := hb
  refine ⟨by omega, ?_, fun w hw h => ?_⟩
  · rcases Nat.le_total a b with h | h
    · rw [Nat.min_eq_left h]; exact .inl hP
    · rw [Nat.min_eq_right h]; exact .inr hQ
  · rcases h with h | h
    · have := hla w hw h; omega
    · have := hlb w hw h; omega

/-- A band in use adds its start to the boundaries; one not in use adds nothing. -/
theorem firstAfter_band {P : Nat → Prop} {v best : Nat} {b : Band} (h : FirstAfter P v best)
    (hb : b.inUse = true → b.start ≤ 1439) :
    FirstAfter (fun w => P w ∨ (b.inUse = true ∧ w % 86400 = 60 * b.start)) v
      (if b.inUse then min best (nextTimeOfDay v (60 * b.start)) else best) := by
  cases hu : b.inUse with
  | false => simpa using h
  | true =>
      have hs := hb hu
      simpa using firstAfter_min h (firstAfter_nextTimeOfDay v (show 60 * b.start < 86400 by omega))

theorem firstAfter_bands (g : Cfg) {v : Nat} (hb : ∀ n, (g.bands.get n).inUse = true → (g.bands.get n).start ≤ 1439)
    (l : List FeederId) {P : Nat → Prop} {best : Nat} (h : FirstAfter P v best) :
    FirstAfter (fun w => P w ∨ ∃ n ∈ l, (g.bands.get n).inUse = true ∧ w % 86400 = 60 * (g.bands.get n).start) v
      (l.foldl (fun best i =>
        let b := g.bands.get i
        if b.inUse then min best (nextTimeOfDay v (60 * b.start)) else best) best) := by
  induction l generalizing P best with
  | nil => simpa using h
  | cons i l ih =>
      refine (ih (firstAfter_band h (hb i))).congr fun w => ?_
      simp only [List.mem_cons, exists_eq_or_imp, or_assoc]

/-- The lengths an interval may have divide the day. -/
theorem intervalLen_dvd_day {len : Nat} (h : len ∈ [1, 2, 3, 4, 5, 6, 10, 12, 15]) : 0 < len * 60 ∧ len * 60 ∣ 86400 := by
  revert h len
  decide

theorem firstAfter_endPointAfter (g : Cfg) (v : Nat) (hlen : g.intervalLen ∈ [1, 2, 3, 4, 5, 6, 10, 12, 15])
    (hb : ∀ n, (g.bands.get n).inUse = true → (g.bands.get n).start ≤ 1439) :
    FirstAfter (IsBoundary g) v (endPointAfter g v) := by
  obtain ⟨h0, hd⟩ := intervalLen_dvd_day hlen
  refine (firstAfter_bands g hb FeederId.every (firstAfter_nextMultiple v h0 hd)).congr fun w => ?_
  simp only [IsBoundary, FeederId.mem_every, true_and]

/-! ### Closing an interval -/

/-- The COST frame of a close at `v`: none when the set made no energy (R146). -/
def costFrames (i : Interval) (g : Cfg) (v : Nat) : List Report :=
  if i.setE = 0 then []
  else [.lc (.offer (groupFrame g .cost 0 (costPayload g.station v i.setE i.setC)))]

/-- Before its COST frame a close reports to the SR alone. -/
theorem closeInterval_reports (b : Bu) (s : State) (v : Nat) :
    ∃ before : List Report, (∀ p : Report → Bool, (∀ m, p (.sr m) = true) → before.all p = true) ∧
      (closeInterval b s v).2 =
        before ++ costFrames b.interval s.cfg v ++ [.pt (.intervalClosed v), .sr (.touch .interval)] := by
  refine ⟨_, fun p hsr => ?_, rfl⟩
  rw [List.all_append, postAll_all hsr, Bool.and_true]
  split
  · rfl
  · simp [hsr]

/-- Of the reports of a close, those for the LC are its COST frame. -/
theorem closeInterval_filter {p : Report → Bool} (hlc : ∀ m, p (.lc m) = true) (hsr : ∀ m, p (.sr m) = false)
    (hpt : ∀ m, p (.pt m) = false) (b : Bu) (s : State) (v : Nat) :
    (closeInterval b s v).2.filter p = costFrames b.interval s.cfg v := by
  obtain ⟨before, hb, e⟩ := closeInterval_reports b s v
  have hbefore : before.filter p = [] := by
    simpa [List.filter_eq_nil_iff] using hb (fun r => !p r) (by simp [hsr])
  have hcost : (costFrames b.interval s.cfg v).filter p = costFrames b.interval s.cfg v := by
    unfold costFrames
    split <;> simp [hlc]
  simp [e, hbefore, hcost, hsr, hpt]

theorem mem_closeInterval_reports (b : Bu) (s : State) (v : Nat) :
    .pt (.intervalClosed v) ∈ (closeInterval b s v).2 ∧ .sr (.touch .interval) ∈ (closeInterval b s v).2 := by
  obtain ⟨before, _, e⟩ := closeInterval_reports b s v
  simp [e]

end Sys2Proof.Machine
end

section
/-! SUPPORT. Changes of the clock, postings, statements, and a permitted tool command. -/

namespace Sys2Proof.Machine

/-! ### Changes of the clock -/

theorem clockChange_becomingValid_none {b : Bu} (s : State) (w : Nat) (h : b.interval.band = none) :
    (clockChange b s (.becomingValid w)).1 =
      { b with interval := { b.interval with band := takeBand s.cfg w, endPoint := some (endPointAfter s.cfg w) } } := by
  simp only [clockChange, h, Option.isNone_none, if_true, withInterval]

theorem clockChange_becomingValid_some {b : Bu} (s : State) (w : Nat) (h : b.interval.band.isSome = true) :
    (clockChange b s (.becomingValid w)).1 = b := by
  obtain ⟨x, hx⟩ := Option.isSome_iff_exists.1 h
  simp only [clockChange, hx, Option.isNone_some, Bool.false_eq_true, if_false, quiet]

theorem clockChange_step_at {b : Bu} (s : State) {v : Nat} (h : b.interval.endPoint = some v) :
    clockChange b s (.step v) = closeInterval b s v := if_pos h

theorem clockChange_step_other {b : Bu} (s : State) {v : Nat} (h : b.interval.endPoint ≠ some v) :
    clockChange b s (.step v) = (b, []) := if_neg h

theorem clockChange_jump_past {b : Bu} (s : State) (u : Nat) {v e : Nat} (he : b.interval.endPoint = some e)
    (h : e ≤ v) : clockChange b s (.jump u v) = closeInterval b s v := by
  simp only [clockChange, he, h, if_true]

theorem clockChange_jump_short {b : Bu} (s : State) (u : Nat) {v e : Nat} (he : b.interval.endPoint = some e)
    (h : v < e) : clockChange b s (.jump u v) = (b, []) := by
  simp only [clockChange, he, Nat.not_le.2 h, if_false, quiet]

theorem clockChange_jump_none {b : Bu} (s : State) (u v : Nat) (he : b.interval.endPoint = none) :
    clockChange b s (.jump u v) = (b, []) := by
  simp only [clockChange, he, quiet]

/-! ### Postings and statements -/

/-- No part of a charge is lost: what lifetime does not take stays in the carry (R151). -/
theorem post_conserves (x : Slot) (p e t u clock : Nat) :
    (x.post p e t u clock).lifetime * 100000 + (x.post p e t u clock).carry = x.lifetime * 100000 + x.carry + p := by
  simp only [Slot.post]
  omega

theorem post_carry_lt (x : Slot) (p e t u clock : Nat) : (x.post p e t u clock).carry < 100000 :=
  Nat.mod_lt _ (by decide)

theorem journalPut_getLast? (l : List JournalEntry) (e : JournalEntry) : (journalPut l e).getLast? = some e := by
  simp only [journalPut]
  split <;> simp

theorem close_statements_getLast? (x : Slot) (st : Statement) : (x.close st).statements.getLast? = some st := by
  simp [Slot.close]

theorem close_statements_length {x : Slot} (st : Statement) (h : x.statements.length ≤ 4) :
    (x.close st).statements.length = min 4 (x.statements.length + 1) := by
  simp only [Slot.close, List.length_append, List.length_singleton]
  split
  · omega
  · rw [List.length_drop]; omega

theorem codeInRange_iff (c : Nat) : codeInRange c = true ↔ 1 ≤ c ∧ c ≤ 4095 := by simp [codeInRange]

theorem statementClose_range (b : Bu) (s : State) (ask : Ask) {c : Nat} (h : c < 1 ∨ 4095 < c) :
    statementClose b s ask c = (b, [.lc (.answer ask .range [])]) := by
  have : codeInRange c = false := by
    rw [← Bool.not_eq_true, codeInRange_iff]; omega
  simp only [statementClose, this, Bool.not_false, if_true]

theorem statementClose_state (b : Bu) (s : State) (ask : Ask) {c : Nat} (h : codeInRange c = true)
    (hf : b.slots.findIdx? (·.tenant == c) = none) :
    statementClose b s ask c = (b, [.lc (.answer ask .state [])]) := by
  simp only [statementClose, h, hf, Bool.not_true, Bool.false_eq_true, if_false]

theorem statementClose_done (b : Bu) (s : State) (ask : Ask) {c i : Nat} {x : Slot} (h : codeInRange c = true)
    (hf : b.slots.findIdx? (·.tenant == c) = some i) (hx : b.slots[i]? = some x) :
    statementClose b s ask c =
      let st := x.statement s.pt.clock s.pt.clockValid
      ({ b with slots := b.slots.set i (x.close st) },
        [.sr (.touch (slotRecord i)), .lc (.answer ask .done (statementBytes st))]) := by
  have hd : b.slots.getD i .free = x := by rw [List.getD_eq_getElem?_getD, hx, Option.getD_some]
  simp only [statementClose, h, hf, hd, Bool.not_true, Bool.false_eq_true, if_false]

/-! ### A permitted tool command -/

theorem SubKind.ofByte?_byte (k : SubKind) : SubKind.ofByte? k.byte = some k := by cases k <;> rfl

theorem takeTool_report {k : SubKind} (hk : k ≠ .restart) (l : Lc) (station : Nat) (ask : Ask) (params : List Byte) :
    takeTool l station ask k params = (l, k.report ask params) := by
  cases k
  case restart => exact absurd rfl hk
  all_goals rfl

theorem dispatchFrame_toolCommand (l : Lc) (s : State) (h : Header) (payload : List Byte) :
    dispatchFrame l s h (BitVec.ofNat 8 Kind.toolCommand.code) payload = toolCommand l s h payload := rfl

theorem frameEnd_of_accepts {s : State} {h : Header} (ha : Accepts s h) (kind : Byte) (payload : List Byte) :
    frameEnd s.lc s h kind payload = dispatchFrame s.heard.lc s h kind payload := by
  obtain ⟨_, hen, hrb, had, hne⟩ := ha
  simp only [frameEnd, hen, hrb, had, hne, Bool.not_true, Bool.false_eq_true, if_false, State.heard]

theorem toolCommand_permitted {l : Lc} {s : State} {h : Header} {k : SubKind} {params : List Byte} (tag : Byte)
    (hf : FromTool h) (hd : h.dest.toNat = s.cfg.station) (hr : l.restart = .none)
    (hp : params.length = k.paramLength) (hl : (k.altering && s.fli.inputs.lock) = false) :
    toolCommand l s h (k.byte :: tag :: params) = takeTool l s.cfg.station (askOf h k tag) k params := by
  obtain ⟨hlo, hhi⟩ := hf
  have hs : ¬ (h.sender.toNat < 28 ∨ 31 < h.sender.toNat) := by omega
  simp only [toolCommand, hd, hr, hs, SubKind.ofByte?_byte, hp, hl, ne_eq, not_true_eq_false, or_self, if_false,
    Bool.false_eq_true, askOf]

/-- A permitted tool command other than RESTART is handed to its owner, from the state the frame's end leaves. -/
theorem run_toolOf {s : State} {h : Header} {k : SubKind} {params : List Byte} (tag : Byte) (hc : Commands s h)
    (hk : k ≠ .restart) (hp : params.length = k.paramLength) (hl : (k.altering && s.fli.inputs.lock) = false) :
    s.run [toolOf k h tag params] = s.heard.handOn 1 (k.report (askOf h k tag) params) := by
  obtain ⟨ha, hf, hd, hr⟩ := hc
  obtain ⟨hup, _⟩ := id ha
  have e : lcHandle (.frame h (BitVec.ofNat 8 Kind.toolCommand.code) (k.byte :: tag :: params)) s =
      (s.heard.lc, k.report (askOf h k tag) params) :=
    calc
      _ = dispatchFrame s.heard.lc s h _ _ := frameEnd_of_accepts ha _ _
      _ = toolCommand s.heard.lc s h _ := dispatchFrame_toolCommand ..
      _ = takeTool s.heard.lc s.cfg.station (askOf h k tag) k params :=
        toolCommand_permitted tag hf hd hr hp hl
      _ = _ := takeTool_report hk ..
  rw [run_one hup, toolOf, frameOf]
  simp only [deliver, e]
  rfl

end Sys2Proof.Machine
end

section
/-! SUPPORT. The accounts, charges, postings and statements (O53). -/

namespace Sys2Proof.Machine

/-- A report that only changes the open interval hands its record to the SR when the interval changed (R142, R161). -/
theorem deliver_withInterval_reports {s : State} {m : BuMsg} {i : Interval} (h : buHandle m s = withInterval s.bu i) :
    (deliver (.bu m) s).2 =
      (if (deliver (.bu m) s).1.bu.interval = s.bu.interval then [] else [.sr (.touch .interval)]) ++ [] := by
  simp only [deliver, h, withInterval, List.append_nil]

theorem postFeeder_of_findSlot (k : CloseTerms) {b : Bu} (n : FeederId) {a : FeederAcc} {i : Nat} {x : Slot}
    (h : findSlot b.slots a.tenant = some (i, x)) :
    (postFeeder k b n a).1.slots =
      b.slots.set i (x.post (charge k.rate k.band a.e a.t) (min a.e 16777215) a.t a.u k.clock) ∧
    (postFeeder k b n a).1.postingNumber = (b.postingNumber + 1) % 4294967296 ∧
    ((postFeeder k b n a).1.journal.getLast?.map (·.number)) = some (postFeeder k b n a).1.postingNumber ∧
    ((postFeeder k b n a).1.journal.getLast?.map (·.clamped)) = some (decide (16777215 < a.e)) := by
  simp only [postFeeder, h, journalPut_getLast?]
  exact ⟨rfl, trivial, rfl, rfl⟩

/-- STATEMENT CLOSE: what the BU does with it is handed on from the state the frame's end leaves. -/
theorem exec_statementClose {h : Header} (tag : Byte) {params : List Byte} {s : State} (hc : Commands s h)
    (hp : params.length = 2) (hl : s.fli.inputs.lock = false) {b : Bu} {rs : List Report}
    (hb : statementClose s.bu s.heard (askOf h .statementClose tag) (beNat params) = (b, rs)) :
    exec (.statementClose h tag params) s = .next (State.handOn { s.heard with bu := b } 2 rs) := by
  have e : s.run [toolOf .statementClose h tag params] = _ := run_toolOf tag hc (by decide) hp (by simp [hl])
  have d : deliver (.bu (.statementClose (askOf h .statementClose tag) (beNat params))) s.heard =
      ({ s.heard with bu := b }, rs) := by
    simp only [deliver, buHandle, show s.heard.bu = s.bu from rfl, hb]
  rw [SubKind.report, handOn_cons _ _ _ (by omega), d, List.append_nil] at e
  exact congrArg _ e

/-- Settles O53: the accounts of the open interval, its band and its end point, the changes of the clock that close it,
the charges and postings, and STATEMENT CLOSE. -/
theorem chargesPostingsStatements : Obligations.ChargesPostingsStatements := by
  unfold Obligations.ChargesPostingsStatements
  refine ⟨fun s => ⟨⟨rfl, fun _ => rfl⟩, fun k => ⟨bookSet_succ s.bu k, rfl⟩,
    fun n k => ⟨bookFeeder_succ s.bu n k, rfl⟩, fun p => ?cost, fun _ _ => rfl,
    fun n => ⟨onFeeder_get_same .., fun m hm => onFeeder_get_other _ _ hm⟩, ?touched⟩,
    fun s t h => handOn_seTotal s t h,
    fun s n t => ⟨handOn_fTotal_none s n t, fun a ha he => handOn_fTotal_some s n t ha he⟩,
    fun g v => ⟨?inForce, takeBand_eq_none_iff g v⟩,
    fun b s v => ⟨closeInterval_filter (fun _ => rfl) (fun _ => rfl) (fun _ => rfl) b s v,
      (mem_closeInterval_reports b s v).1, (mem_closeInterval_reports b s v).2, rfl⟩,
    fun g v hlen hb => ?endPoint,
    fun s => ⟨fun w => ⟨clockChange_becomingValid_none s w, clockChange_becomingValid_some s w⟩, ?step, ?jump⟩,
    fun _ _ _ _ => rfl,
    fun x p e t u clock => ⟨post_conserves x p e t u clock, post_carry_lt x p e t u clock, rfl, rfl, rfl, rfl, rfl, rfl,
      rfl, rfl, rfl⟩,
    fun k b n a i x h => postFeeder_of_findSlot k n h,
    fun h tag params s hc hp hl => ⟨?range, ?state, ?done⟩⟩
  case cost => simp only [deliver, buHandle, withInterval, satAdd_eq_min, max40]
  case touched =>
    rintro m (⟨p, rfl⟩ | ⟨x, y, rfl⟩ | ⟨n, rfl⟩)
    · exact deliver_withInterval_reports rfl
    · exact deliver_withInterval_reports rfl
    · exact deliver_withInterval_reports rfl
  case inForce =>
    rintro j (⟨hu, ho, hl⟩ | ⟨hn, hu, ho, hl⟩)
    · exact takeBand_of_bandInForce (bandInForce_of_started
        ⟨hu, decide_eq_true ho, fun q hq hoq => hl q hq (of_decide_eq_true hoq)⟩)
    · exact takeBand_of_bandInForce (bandInForce_of_none_started hn ⟨hu, rfl, fun q hq _ => hl q hq trivial⟩)
  case endPoint =>
    obtain ⟨hlt, hbd, hfirst⟩ := firstAfter_endPointAfter g v hlen hb
    exact ⟨hlt, hbd, hfirst, rfl, rfl, rfl, rfl, rfl, rfl, rfl, rfl⟩
  case step =>
    exact fun v => ⟨fun h => congrArg Prod.fst (clockChange_step_at s h),
      fun h => congrArg Prod.fst (clockChange_step_other s h)⟩
  case jump =>
    exact fun u v => ⟨fun e he h => congrArg Prod.fst (clockChange_jump_past s u he h),
      fun e he h => congrArg Prod.fst (clockChange_jump_short s u he h),
      fun he => congrArg Prod.fst (clockChange_jump_none s u v he)⟩
  case range =>
    intro hr
    rw [exec_statementClose tag hc hp hl (statementClose_range _ _ _ hr), handOn_answer _ _ _ _ (by omega)]
    rfl
  case state =>
    intro h1 h2 hf
    rw [exec_statementClose tag hc hp hl (statementClose_state _ _ _ ((codeInRange_iff _).2 ⟨h1, h2⟩) hf),
      handOn_answer _ _ _ _ (by omega)]
    rfl
  case done =>
    intro i x h1 h2 hf hx
    exact ⟨exec_statementClose tag hc hp hl (statementClose_done _ _ _ ((codeInRange_iff _).2 ⟨h1, h2⟩) hf hx),
      rfl, rfl, rfl, rfl, rfl, rfl, rfl, rfl, close_statements_length _, close_statements_getLast? x _⟩

end Sys2Proof.Machine
end

section
/-! SUPPORT. What a command is to the state, and what every start and every report keeps is kept by every step. -/

namespace Sys2Proof.Machine

/-! ### What a command is -/

/-- No change of the clock and no floor to write: a report that tells no value of the clock. -/
def Report.untimed : Report → Bool
  | .bu (.clock _) | .pt (.intervalClosed _) => false
  | _ => true

/-- A command that begins no start and takes no power is one report, which tells no value of the clock. -/
theorem exec_runs {c : Instr} {s t : State} (hc : c.startsOrStops = false) (h : exec c s = .next t) :
    ∃ r, r.untimed = true ∧ t = s.run [r] := by
  cases c with
  | powerOn inp => cases hc
  | resetInput inp => cases hc
  | powerFail => cases hc
  | restartHandover inp => cases hc
  | _ => cases h; exact ⟨_, rfl, rfl⟩

/-- The other commands begin a start, take the power, or find nothing to do. -/
theorem exec_starts {c : Instr} {s t : State} (hc : c.startsOrStops = true) (h : exec c s = .next t) :
    t = s ∨ (∃ inp u, t = startPart inp u) ∨ t = losePower s := by
  cases c with
  | powerOn inp => cases h; exact .inr (.inl ⟨_, _, rfl⟩)
  | resetInput inp =>
      cases h
      split
      · exact .inl rfl
      · exact .inr (.inl ⟨_, _, rfl⟩)
  | powerFail => cases h; exact .inr (.inr rfl)
  | restartHandover inp =>
      cases h
      split
      · exact .inr (.inl ⟨_, _, rfl⟩)
      · exact .inl rfl
  | _ => cases hc

/-! ### Invariants of the peer entries, the CC and the transmit queue -/

/-- A property of the peer entries, the CC and the transmit queue that a fresh state has and every report keeps. -/
structure GroupInvariant (Inv : State → Prop) : Prop where
  fresh : ∀ (s : State) p, Inv (s.fresh p)
  told : ∀ r s, Inv s → Inv (deliver r s).1
  same : ∀ s t : State, t.pt.entries = s.pt.entries → t.cc = s.cc → t.lc.queue = s.lc.queue →
    t.lc.sending = s.lc.sending → Inv s → Inv t

namespace GroupInvariant

variable {Inv : State → Prop}

theorem of_take (hI : GroupInvariant Inv) {s : State} (h : Inv s) (rs : List Report) : Inv (s.take rs) :=
  settle_invariant Inv hI.told _ rs s h

theorem of_startStep (hI : GroupInvariant Inv) (n : Nat) (inp : StartInputs) {s : State} (h : Inv s) :
    Inv (startStep n inp s) := by
  unfold startStep
  split
  · exact hI.fresh s _
  · unfold stepConfig
    split <;> exact hI.same s _ rfl rfl rfl rfl h
  · exact hI.same s _ rfl rfl rfl rfl h
  · exact hI.same s _ rfl rfl rfl rfl h
  · exact hI.same s _ rfl rfl rfl rfl h
  · exact hI.of_take (by exact hI.same s _ rfl rfl rfl rfl h) _
  · exact hI.of_take (by exact hI.same s _ rfl rfl rfl rfl h) _
  · exact hI.of_take (by exact hI.same s _ rfl rfl rfl rfl h) _
  · exact hI.of_take (by exact hI.same s _ rfl rfl rfl rfl h) _
  · exact h

theorem of_runStep (hI : GroupInvariant Inv) (inp : StartInputs) {s : State} (h : Inv s) (n : Nat) :
    Inv (runStep inp s n) := by
  have stepped := hI.of_startStep n inp h
  unfold runStep
  split
  · exact h
  dsimp only
  split
  · exact stepped
  · exact hI.of_take (by exact hI.same (startStep n inp s) _ rfl rfl rfl rfl stepped) _

/-- It holds after every start, whatever went before. -/
theorem of_startPart (hI : GroupInvariant Inv) (inp : StartInputs) (s : State) : Inv (startPart inp s) := by
  have steps : ∀ (l : List Nat) (t : State), Inv t → Inv (l.foldl (runStep inp) t) := by
    intro l
    induction l with
    | nil => exact fun t h => h
    | cons n l ih => exact fun t h => ih _ (hI.of_runStep inp h n)
  have through := steps stepNumbers _ (hI.fresh s (.starting 0))
  unfold startPart
  dsimp only
  split
  · exact hI.of_take (by exact hI.same (stepNumbers.foldl (runStep inp) _) _ rfl rfl rfl rfl through) _
  · exact through

theorem of_exec (hI : GroupInvariant Inv) {c : Instr} {s t : State} (ht : exec c s = .next t) (h : Inv s) : Inv t := by
  cases hc : c.startsOrStops with
  | true =>
      obtain rfl | ⟨inp, u, rfl⟩ | rfl := exec_starts hc ht
      · exact h
      · exact hI.of_startPart inp u
      · exact hI.same (s.fresh .off) _ rfl rfl rfl rfl (hI.fresh s .off)
  | false =>
      obtain ⟨r, -, rfl⟩ := exec_runs hc ht
      exact run_invariant Inv hI.told _ _ h

/-- Every step keeps it. -/
theorem of_step (hI : GroupInvariant Inv) {s t : State} (ht : step s = .next t) (h : Inv s) : Inv t := by
  unfold step at ht
  split at ht
  · cases ht; exact h
  · exact hI.of_exec ht (hI.same s _ rfl rfl rfl rfl h)

end GroupInvariant

end Sys2Proof.Machine
end

section
/-! SUPPORT. The peer table: an entry put in, found, taken out, and the clamped fields of an entry (R23 to R26). -/

namespace Sys2Proof.Machine

/-! ### Entries -/

theorem Pt.find_isSome (p : Pt) (n : Nat) : (p.find n).isSome = p.entries.any (·.station == n) := by
  rw [Bool.eq_iff_iff, Pt.find, List.find?_isSome, List.any_eq_true]

theorem station_replaced (e x : PeerEntry) : (if x.station == e.station then e else x).station = x.station := by
  split
  next h => exact (beq_iff_eq.mp h).symm
  · rfl

/-- Replacing the entry of a station does not change where an entry is found. -/
theorem find_replaced (l : List PeerEntry) (e : PeerEntry) (m : Nat) :
    (l.map fun x => if x.station == e.station then e else x).find? (·.station == m) =
      (l.find? (·.station == m)).map fun x => if x.station == e.station then e else x := by
  simp only [List.find?_map, Function.comp_def, station_replaced]

/-- An entry put in stands for its station. -/
theorem find_putEntry_same (l : List PeerEntry) (e : PeerEntry) :
    (putEntry l e).find? (·.station == e.station) = some e := by
  unfold putEntry
  split
  next held =>
    rw [← List.find?_isSome.trans List.any_eq_true.symm] at held
    obtain ⟨x, hx⟩ := Option.isSome_iff_exists.mp held
    have own := List.find?_some hx
    rw [find_replaced, hx, Option.map_some, if_pos own]
  next absent =>
    have none : l.find? (·.station == e.station) = none := by simpa using absent
    simp [none]

/-- The entries of the other stations stay. -/
theorem find_putEntry_other (l : List PeerEntry) (e : PeerEntry) {m : Nat} (h : m ≠ e.station) :
    (putEntry l e).find? (·.station == m) = l.find? (·.station == m) := by
  unfold putEntry
  split
  · rw [find_replaced]
    cases hx : l.find? (·.station == m) with
    | none => rfl
    | some x =>
        have own := List.find?_some hx
        rw [beq_iff_eq] at own
        rw [Option.map_some, if_neg (by simpa [own] using h)]
  · simp [h.symm]

theorem length_putEntry (l : List PeerEntry) (e : PeerEntry) :
    (putEntry l e).length = l.length + if l.any (·.station == e.station) then 0 else 1 := by
  unfold putEntry
  split <;> simp [*]

theorem mem_putEntry {l : List PeerEntry} {e x : PeerEntry} (h : x ∈ putEntry l e) : x ∈ l ∨ x = e := by
  unfold putEntry at h
  split at h
  · obtain ⟨y, hy, rfl⟩ := List.mem_map.mp h
    split
    · exact .inr rfl
    · exact .inl hy
  · simpa using h

/-- No station gets a second entry. -/
theorem nodup_putEntry {l : List PeerEntry} (h : (l.map (·.station)).Nodup) (e : PeerEntry) :
    ((putEntry l e).map (·.station)).Nodup := by
  unfold putEntry
  split
  · simpa only [List.map_map, Function.comp_def, station_replaced] using h
  next absent =>
    have new : e.station ∉ l.map (·.station) := by simpa using absent
    simpa [List.nodup_append, h] using new

/-! ### The PT's acts on the entries -/

@[simp] theorem moveClock_entries (p : Pt) (v : Nat) (c : ClockChange) : (moveClock p v c).1.entries = p.entries := rfl

@[simp] theorem hearClock_entries (p : Pt) (b : Bool) (v : Nat) : (hearClock p b v).1.entries = p.entries := by
  unfold hearClock
  (repeat' split) <;> rfl

@[simp] theorem clockSecond_entries (p : Pt) : (clockSecond p).1.entries = p.entries := by
  unfold clockSecond
  (repeat' split) <;> rfl

@[simp] theorem timeSetClock_entries (p : Pt) (a : Ask) (v : Nat) : (timeSetClock p a v).1.entries = p.entries := by
  unfold timeSetClock
  (repeat' split) <;> rfl

/-- The tests a STATE frame fails (R23). -/
def StateFails (h : Header) (payload : List Byte) : Prop :=
  h.group = 0 ∨ payload.length ≠ 44 ∨ h.sender.toNat < 1 ∨ 27 < h.sender.toNat ∨
    fieldAt payload 0 1 ≠ h.sender.toNat ∨ fieldAt payload 1 1 ≠ h.group.toNat

/-- The station has its entry, or the table room for one (R26). -/
def Pt.admits (p : Pt) (n : Nat) : Prop := (p.find n).isSome = true ∨ p.entries.length < 15

section
variable {p : Pt} {s : State} {h : Header} {payload : List Byte}

theorem hearState_fails (hf : StateFails h payload) : hearState p s h payload = quiet p := by
  unfold StateFails at hf
  unfold hearState
  dsimp only
  split
  · rfl
  next framed =>
    split
    · rfl
    next known =>
      split
      · rfl
      next same => exact absurd hf (by simpa only [not_or, and_assoc] using And.intro framed (And.intro known same))

theorem hearState_full (hf : ¬ StateFails h payload) (hn : p.find h.sender.toNat = none)
    (hl : 15 ≤ p.entries.length) : hearState p s h payload = quiet { p with tableFull := true } := by
  simp only [StateFails, not_or] at hf
  obtain ⟨group, length, low, high, own, ownGroup⟩ := hf
  simp only [hearState, group, length, low, high, own, ownGroup, hn, hl, or_self, if_false, Option.isNone_none,
    decide_true, Bool.and_self, if_true]

theorem hearState_taken (hf : ¬ StateFails h payload) (hn : p.admits h.sender.toNat) :
    hearState p s h payload = takeState p s h.sender.toNat (PeerFields.ofPayload payload) := by
  simp only [StateFails, not_or] at hf
  obtain ⟨group, length, low, high, own, ownGroup⟩ := hf
  have room : ((p.find h.sender.toNat).isNone && decide (15 ≤ p.entries.length)) = false := by
    rcases hn with known | few
    · simp [Option.isNone_eq_false_iff.mpr known]
    · simp [Nat.not_le.mpr few]
  simp only [hearState, group, length, low, high, own, ownGroup, room, or_self, if_false, Bool.false_eq_true]

theorem not_admits_iff {n : Nat} : ¬ p.admits n ↔ p.find n = none ∧ 15 ≤ p.entries.length := by
  simp [Pt.admits]

end

@[simp] theorem takeState_entries (p : Pt) (s : State) (n : Nat) (f : PeerFields) :
    (takeState p s n f).1.entries = putEntry p.entries ⟨n, f, ageOf f.heartbeat⟩ := by
  simp [takeState, recompute]

/-- What a report can do to the entries: nothing, take in those of a STATE frame that passes R23, or remove a peer. -/
theorem ptHandle_entries (m : PtMsg) (s : State) :
    (ptHandle m s).1.entries = s.pt.entries ∨
    (∃ n payload, 1 ≤ n ∧ n ≤ 27 ∧ s.pt.admits n ∧
      (ptHandle m s).1.entries = putEntry s.pt.entries
        ⟨n, .ofPayload payload, ageOf (PeerFields.ofPayload payload).heartbeat⟩) ∨
    ∃ n, (ptHandle m s).1.entries = s.pt.entries.filter fun e => e.station != n := by
  cases m with
  | reportable => left; simp only [ptHandle]; split <;> rfl
  | ownChanged => left; rfl
  | heartbeat => left; simp only [ptHandle]; split <;> rfl
  | showChanged => left; rfl
  | stateFrame h payload =>
      dsimp only [ptHandle]
      by_cases hf : StateFails h payload
      · left; rw [hearState_fails hf]; rfl
      by_cases hn : s.pt.admits h.sender.toNat
      · right; left
        refine ⟨h.sender.toNat, payload, ?_, ?_, hn, ?_⟩
        · simp only [StateFails, not_or] at hf; omega
        · simp only [StateFails, not_or] at hf; omega
        · rw [hearState_taken hf hn, takeState_entries]
      · obtain ⟨unknown, full⟩ := not_admits_iff.mp hn
        left; rw [hearState_full hf unknown full]; rfl
  | age n =>
      simp only [ptHandle, loseEntry]
      split
      · exact .inl rfl
      · exact .inr (.inr ⟨n, rfl⟩)
  | second => exact .inl (clockSecond_entries _)
  | runSecond => left; simp only [ptHandle]; split <;> rfl
  | timeSet ask v => exact .inl (timeSetClock_entries _ _ _)
  | intervalClosed v => left; rfl

/-! ### The peer table is sound (O58) -/

/-- An entry of a station 1 to 27 with its fields as Table 2-3 clamps them and the age timer R25 gives. -/
def PeerEntry.Clamped (e : PeerEntry) : Prop :=
  1 ≤ e.station ∧ e.station ≤ 27 ∧ e.age = 3 * e.fields.heartbeat + 200 ∧
    500 ≤ e.fields.heartbeat ∧ e.fields.heartbeat ≤ 2000 ∧ e.fields.heartbeat % 100 = 0 ∧
    e.fields.share ≤ 1250 ∧ e.fields.hours ≤ 9999 ∧ e.fields.partner ≤ 27 ∧ e.fields.shedCount ≤ 4 ∧
    (e.fields.setFitted = true → 10 ≤ e.fields.rating ∧ e.fields.rating ≤ 2000) ∧
    (e.fields.setFitted = false → e.fields.rating = 0 ∧ e.fields.output = 0 ∧ e.fields.onBus = false)

theorem clampTo_mem {lo hi : Nat} (h : lo ≤ hi) (n : Nat) : lo ≤ clampTo lo hi n ∧ clampTo lo hi n ≤ hi := by
  unfold clampTo
  (repeat' split) <;> omega

/-- The heartbeat period of an entry: 500 to 2,000 ms in whole tenths of a second. -/
theorem clampHeartbeat_range (n : Nat) :
    500 ≤ clampHeartbeat n ∧ clampHeartbeat n ≤ 2000 ∧ clampHeartbeat n % 100 = 0 := by
  have := clampTo_mem (show 500 ≤ 2000 by decide) n
  unfold clampHeartbeat
  omega

theorem ofPayload_clamped {n : Nat} (h1 : 1 ≤ n) (h27 : n ≤ 27) (payload : List Byte) :
    PeerEntry.Clamped ⟨n, .ofPayload payload, ageOf (PeerFields.ofPayload payload).heartbeat⟩ := by
  obtain ⟨low, high, tenths⟩ := clampHeartbeat_range (fieldAt payload 3 2)
  refine ⟨h1, h27, rfl, low, high, tenths, ?share, (clampTo_mem (lo := 0) (by omega) _).2, ?partner,
    (clampTo_mem (lo := 0) (by omega) _).2, fun fitted => ?set, fun bare => ?noSet⟩
  case share =>
    dsimp only [PeerFields.ofPayload]
    split
    · exact (clampTo_mem (lo := 0) (by omega) _).2
    · omega
  case partner =>
    dsimp only [PeerFields.ofPayload]
    split
    · omega
    next known =>
      simp only [Bool.or_eq_true, decide_eq_true_eq, not_or] at known
      omega
  case set =>
    have fitted' : (fieldAt payload 2 1).testBit 0 = true := fitted
    simp only [PeerFields.ofPayload, fitted', if_true]
    exact clampTo_mem (by decide) _
  case noSet =>
    have bare' : (fieldAt payload 2 1).testBit 0 = false := bare
    simp [PeerFields.ofPayload, bare']

/-- The table of R23 to R26, by its entries. -/
def EntriesSound (l : List PeerEntry) : Prop :=
  l.length ≤ 15 ∧ (l.map (·.station)).Nodup ∧ ∀ e ∈ l, e.Clamped

theorem peersSound_iff (s : State) : PeersSound s ↔ EntriesSound s.pt.entries := Iff.rfl

theorem entriesSound_nil : EntriesSound [] := ⟨Nat.zero_le _, List.nodup_nil, fun _ he => absurd he List.not_mem_nil⟩

theorem EntriesSound.putEntry {p : Pt} (h : EntriesSound p.entries) {e : PeerEntry} (hn : p.admits e.station)
    (he : e.Clamped) : EntriesSound (putEntry p.entries e) := by
  obtain ⟨few, once, clamped⟩ := h
  refine ⟨?_, nodup_putEntry once e, fun x hx => (mem_putEntry hx).elim (clamped x) fun hx => hx ▸ he⟩
  rw [length_putEntry, ← p.find_isSome]
  rcases hn with known | room
  · simpa [known] using few
  · split <;> omega

theorem EntriesSound.filter {l : List PeerEntry} (h : EntriesSound l) (p : PeerEntry → Bool) :
    EntriesSound (l.filter p) := by
  obtain ⟨few, once, clamped⟩ := h
  exact ⟨(List.length_filter_le _ _).trans few, once.sublist (List.filter_sublist.map _),
    fun x hx => clamped x (List.mem_of_mem_filter hx)⟩

theorem ptHandle_entriesSound (m : PtMsg) (s : State) (h : EntriesSound s.pt.entries) :
    EntriesSound (ptHandle m s).1.entries := by
  obtain e | ⟨n, payload, low, high, room, e⟩ | ⟨n, e⟩ := ptHandle_entries m s
  · rwa [e]
  · rw [e]
    exact h.putEntry room (ofPayload_clamped low high payload)
  · rw [e]
    exact h.filter _

theorem deliver_entriesSound (r : Report) (s : State) (h : EntriesSound s.pt.entries) :
    EntriesSound (deliver r s).1.pt.entries := by
  cases r with
  | pt m => exact ptHandle_entriesSound m s h
  | _ => exact h

theorem peersSound_invariant : GroupInvariant PeersSound where
  fresh _ _ := (peersSound_iff _).mpr entriesSound_nil
  told r s h := (peersSound_iff _).mpr (deliver_entriesSound r s h)
  same s t he _ _ _ h := by rwa [peersSound_iff, he]

end Sys2Proof.Machine
end

section
/-! SUPPORT. The sides of a handover: each act of the CC leaves one record, of the side its state belongs to (Table 4-1). -/

namespace Sys2Proof.Machine

/-! ### One side -/

/-- The places a CC can stand at: IDLE without a record, outgoing with a call record, incoming with an incoming one. -/
inductive Cc.Stands (c : Cc) : Prop where
  | idle (hs : c.state = .idle) (hc : c.call = none) (hi : c.inc = none)
  | outgoing {r : CallRec} (hs : c.state ≠ .idle ∧ c.state ≠ .offered) (hc : c.call = some r) (hi : c.inc = none)
  | incoming {r : IncRec} (hs : c.state ≠ .idle ∧ c.state ≠ .hold ∧ c.state ≠ .call) (hc : c.call = none)
      (hi : c.inc = some r)

theorem sidesSound_iff (s : State) : SidesSound s ↔ s.cc.Stands := by
  unfold SidesSound
  constructor
  · rintro ⟨single, idle, out, inc⟩
    cases hc : s.cc.call with
    | none =>
        cases hi : s.cc.inc with
        | none => exact .idle (idle.mpr ⟨hc, hi⟩) hc hi
        | some r =>
            refine .incoming ⟨fun h => ?_, fun h => ?_, fun h => ?_⟩ hc hi
            · exact absurd (idle.mp h).2 (by simp [hi])
            · simp [out (by rw [h]; rfl)] at hi
            · simp [out (by rw [h]; rfl)] at hi
    | some r =>
        have hi : s.cc.inc = none := single.resolve_left (by simp [hc])
        refine .outgoing ⟨fun h => ?_, fun h => ?_⟩ hc hi
        · simp [(idle.mp h).1] at hc
        · simp [inc (by rw [h]; rfl)] at hc
  · rintro (⟨hs, hc, hi⟩ | ⟨⟨h1, h2⟩, hc, hi⟩ | ⟨⟨h1, h2, h3⟩, hc, hi⟩)
    · simp [hs, hc, hi]
    · refine ⟨.inr hi, by simp [h1, hc], fun _ => hi, fun side => ?_⟩
      cases h : s.cc.state <;> simp_all [Handover.side]
    · refine ⟨.inl hc, by simp [h1, hi], fun side => ?_, fun _ => hc⟩
      cases h : s.cc.state <;> simp_all [Handover.side]

namespace Cc.Stands

variable {c d : Cc}

/-- What a call record says of the rest. -/
theorem of_call (h : c.Stands) {r : CallRec} (hc : c.call = some r) :
    c.inc = none ∧ c.state ≠ .idle ∧ c.state ≠ .offered := by
  cases h with
  | idle hs hc' hi => simp [hc] at hc'
  | outgoing hs hc' hi => exact ⟨hi, hs⟩
  | incoming hs hc' hi => simp [hc] at hc'

theorem of_inc (h : c.Stands) {r : IncRec} (hi : c.inc = some r) :
    c.call = none ∧ c.state ≠ .idle ∧ c.state ≠ .hold ∧ c.state ≠ .call := by
  cases h with
  | idle hs hc hi' => simp [hi] at hi'
  | outgoing hs hc hi' => simp [hi] at hi'
  | incoming hs hc hi' => exact ⟨hc, hs⟩

theorem of_idle (h : c.Stands) (hs : c.state = .idle) : c.call = none ∧ c.inc = none := by
  cases h with
  | idle hs hc hi => exact ⟨hc, hi⟩
  | outgoing hs' hc hi => exact absurd hs hs'.1
  | incoming hs' hc hi => exact absurd hs hs'.1

/-- An outgoing station stays one, whatever becomes of its record and of its state but IDLE and OFFERED. -/
theorem leave_outgoing (h : c.Stands) {r q : CallRec} (hc : c.call = some r) (hd : d.call = some q)
    (hi : d.inc = c.inc) (hs : d.state ≠ .idle ∧ d.state ≠ .offered) : d.Stands :=
  .outgoing hs hd (hi.trans (h.of_call hc).1)

/-- The same with the state kept. -/
theorem stay_outgoing (h : c.Stands) {r q : CallRec} (hc : c.call = some r) (hd : d.call = some q)
    (hi : d.inc = c.inc) (hs : d.state = c.state) : d.Stands :=
  h.leave_outgoing hc hd hi (by rw [hs]; exact (h.of_call hc).2)

theorem leave_incoming (h : c.Stands) {r q : IncRec} (hi : c.inc = some r) (hd : d.inc = some q)
    (hc : d.call = c.call) (hs : d.state ≠ .idle ∧ d.state ≠ .hold ∧ d.state ≠ .call) : d.Stands :=
  .incoming hs (hc.trans (h.of_inc hi).1) hd

theorem stay_incoming (h : c.Stands) {r q : IncRec} (hi : c.inc = some r) (hd : d.inc = some q)
    (hc : d.call = c.call) (hs : d.state = c.state) : d.Stands :=
  h.leave_incoming hi hd hc (by rw [hs]; exact (h.of_inc hi).2)

/-- Timers, flags and the counter do not matter. -/
theorem of_same (h : c.Stands) (hs : d.state = c.state) (hc : d.call = c.call) (hi : d.inc = c.inc) : d.Stands := by
  cases h with
  | idle hs' hc' hi' => exact .idle (hs.trans hs') (hc.trans hc') (hi.trans hi')
  | outgoing hs' hc' hi' => exact .outgoing (hs ▸ hs') (hc.trans hc') (hi.trans hi')
  | incoming hs' hc' hi' => exact .incoming (hs ▸ hs') (hc.trans hc') (hi.trans hi')

end Cc.Stands

open Cc

/-! ### The acts both sides share -/

theorem ccIdle_stands (c : Cc) : (ccIdle c).1.Stands := .idle rfl rfl rfl

theorem giveUp_stands (c : Cc) (s : State) : (giveUp c s).1.Stands := ccIdle_stands c

theorem dropCall_stands (c : Cc) (s : State) (r : CallRec) (w : AbortReason) : (dropCall c s r w).1.Stands :=
  ccIdle_stands c

theorem giveUpWith_stands (c : Cc) (s : State) (r : IncRec) (w : AbortReason) : (giveUpWith c s r w).1.Stands :=
  ccIdle_stands c

/-! ### The outgoing side -/

section
variable {c : Cc} {s : State} {r : CallRec}

theorem callNow_stands (hi : c.inc = none) (q : CallRec) : (callNow c s q).1.Stands :=
  .outgoing ⟨nofun, nofun⟩ rfl hi

/-- A station in IDLE that may call opens one. -/
theorem openCall_stands (hi : c.inc = none) (k : Cause) : (openCall c s k).1.Stands := by
  unfold openCall
  dsimp only
  split
  · exact .outgoing ⟨nofun, nofun⟩ rfl hi
  · exact callNow_stands (c := { c with call := _ }) hi _

theorem mayCall_idle (h : mayCall c s = true) : c.state = .idle := by
  simp only [mayCall, Bool.and_eq_true, beq_iff_eq] at h
  exact h.1.1.2

theorem serve_stands (h : c.Stands) : (serve c s).1.Stands := by
  unfold serve
  split
  · exact h
  · split
    next may => exact openCall_stands (c := { c with pending := none }) (h.of_idle (mayCall_idle may)).2 _
    · exact h

theorem absorbPending_stands (h : c.Stands) : (absorbPending c s).1.Stands := by
  unfold absorbPending
  split
  next p r hp hc =>
    split
    · exact h
    dsimp only
    split
    · exact h.of_same rfl rfl rfl
    · split
      · exact callNow_stands (c := { c with pending := none, call := _ }) (h.of_call hc).1 _
      · exact h.stay_outgoing hc rfl rfl rfl
  · exact serve_stands h
  · exact h

theorem thresholdChange_stands (h : c.Stands) (a b : Threshold) : (thresholdChange c s a b).1.Stands := by
  have pending : Cc.Stands { c with pending := pendingAfter c.pending a b } := h.of_same rfl rfl rfl
  unfold thresholdChange
  dsimp only
  split
  · exact ccIdle_stands _
  split
  · split
    · exact dropCall_stands _ _ _ _
    · exact absorbPending_stands pending
  · exact absorbPending_stands pending

theorem failedAttempt_stands (h : c.Stands) (hc : c.call = some r) : (failedAttempt c s r).1.Stands := by
  unfold failedAttempt
  dsimp only
  split
  · split
    · exact h.stay_outgoing hc rfl rfl rfl
    · exact h.leave_outgoing hc rfl rfl ⟨nofun, nofun⟩
  · exact ccIdle_stands _

theorem sendCall_stands (h : c.Stands) (hc : c.call = some r) : (sendCall c s r).1.Stands :=
  h.stay_outgoing hc rfl rfl rfl

theorem enterOutgoingRelease_stands (h : c.Stands) (hc : c.call = some r) : (enterOutgoingRelease c).1.Stands :=
  h.leave_outgoing hc hc rfl ⟨nofun, nofun⟩

theorem takeReady_stands (h : c.Stands) (hc : c.call = some r) : (takeReady c s r).1.Stands := by
  unfold takeReady
  split
  · exact h
  split
  · exact h
  · exact h.stay_outgoing hc rfl rfl rfl
  · split
    · exact h
    · exact h.leave_outgoing hc hc rfl ⟨nofun, nofun⟩

theorem takeClosed_stands (h : c.Stands) (hc : c.call = some r) : (takeClosed c s r).1.Stands := by
  unfold takeClosed
  dsimp only
  split
  · split
    · exact h.leave_outgoing hc hc rfl ⟨nofun, nofun⟩
    · exact h
  · exact enterOutgoingRelease_stands h hc
  all_goals exact h

theorem parallelLoss_stands (h : c.Stands) (hc : c.call = some r) : (parallelLoss c r).1.Stands := by
  unfold parallelLoss
  split
  · exact h.stay_outgoing hc rfl rfl rfl
  · exact ccIdle_stands _

theorem parallelSet_stands (h : c.Stands) (hc : c.call = some r) (st : SetState) :
    (parallelSet c s r st).1.Stands := by
  have released : (enterOutgoingRelease { c with partnerLost := c.partnerLost || r.lostLate }).1.Stands :=
    h.leave_outgoing hc hc rfl ⟨nofun, nofun⟩
  unfold parallelSet
  split
  · exact released
  · exact released
  · exact ccIdle_stands _
  all_goals exact h

theorem outgoingSet_stands (h : c.Stands) (hc : c.call = some r) (a b : SetState) :
    (outgoingSet c s r a b).1.Stands := by
  have left : (if a = .onbus ∧ b ≠ .onbus then dropCall c s r .offBus else quiet c).1.Stands := by
    split
    · exact dropCall_stands _ _ _ _
    · exact h
  unfold outgoingSet
  split
  · exact left
  · exact left
  · exact left
  · exact parallelSet_stands h hc b
  · dsimp only [quiet]
    split
    · exact h
    · exact h.stay_outgoing hc rfl rfl rfl
  · split
    · exact ccIdle_stands _
    · exact h
  · exact h
  · exact h

end

/-! ### The incoming side -/

section
variable {c : Cc} {s : State} {r : IncRec}

theorem sendReady_stands (h : c.Stands) (hi : c.inc = some r) : (sendReady c s r).1.Stands := by
  unfold sendReady
  split
  · exact h
  · exact h.stay_incoming hi rfl rfl rfl

theorem prepareSet_stands (h : c.Stands) (hi : c.inc = some r) : (prepareSet c s r).1.Stands := by
  unfold prepareSet
  split
  · exact sendReady_stands h hi
  · split
    · exact h.leave_incoming hi hi rfl ⟨nofun, nofun, nofun⟩
    · exact h
  · exact giveUpWith_stands _ _ _ _
  all_goals exact h

theorem enterIncomingRelease_stands (h : c.Stands) (hi : c.inc = some r) : (enterIncomingRelease c).1.Stands :=
  h.leave_incoming hi hi rfl ⟨nofun, nofun, nofun⟩

theorem enterIncomingDeadbus_stands (h : c.Stands) (hi : c.inc = some r) : (enterIncomingDeadbus c r).1.Stands :=
  h.leave_incoming hi rfl rfl ⟨nofun, nofun, nofun⟩

theorem checkDeadbus_stands (h : c.Stands) : (checkDeadbus c s).1.Stands := by
  unfold checkDeadbus
  split
  next r hi =>
    split
    · exact h
    split
    · exact enterIncomingRelease_stands h hi
    split
    · exact h.stay_incoming hi rfl rfl rfl
    · exact h
  · exact h

theorem incomingSet_stands (h : c.Stands) (hi : c.inc = some r) (st : SetState) :
    (incomingSet c s r st).1.Stands := by
  unfold incomingSet
  split
  · split
    · exact ccIdle_stands _
    · exact h
  · exact prepareSet_stands h hi
  · split
    · exact h
    · exact ccIdle_stands _
  · exact checkDeadbus_stands h
  all_goals exact h

end

/-! ### Either side -/

section
variable {c : Cc} {s : State}

theorem setChanged_stands (h : c.Stands) (a b : SetState) : (setChanged c s a b).1.Stands := by
  unfold setChanged
  split
  next hc => exact outgoingSet_stands h hc a b
  next hi => exact incomingSet_stands h hi b
  · exact serve_stands h

theorem showChange_stands (h : c.Stands) (b : Bool) : (showChange c s b).1.Stands := by
  unfold showChange
  split
  · exact h
  next r hc =>
    split
    · exact callNow_stands (h.of_call hc).1 r
    · split
      · exact h.leave_outgoing hc hc rfl ⟨nofun, nofun⟩
      · exact h
    · split
      · exact h.leave_outgoing hc rfl rfl ⟨nofun, nofun⟩
      · exact h
    · exact h

theorem partnerGone_stands (h : c.Stands) : (partnerGone c s).1.Stands := by
  unfold partnerGone
  split
  next hc =>
    split
    · exact failedAttempt_stands h hc
    · exact parallelLoss_stands h hc
    · exact enterOutgoingRelease_stands h hc
    all_goals exact h
  · split
    · exact ccIdle_stands _
    · exact ccIdle_stands _
    · exact ccIdle_stands _
    · exact giveUp_stands _ _
    · exact giveUp_stands _ _
    all_goals exact h
  · exact h

theorem takeShown_stands (h : c.Stands) (f : PeerFields) : (takeShown c s f).1.Stands := by
  unfold takeShown
  split
  next hc =>
    split
    · split
      · exact takeReady_stands h hc
      · exact h
    · split
      · exact takeClosed_stands h hc
      · exact h
    · split
      · exact takeClosed_stands h hc
      · exact h
    · exact h
  next hi =>
    split
    · split
      · exact enterIncomingDeadbus_stands h hi
      · exact h
    · exact enterIncomingRelease_stands h hi
    · exact checkDeadbus_stands h
    · exact h
  · exact h

theorem hearPartner_stands (h : c.Stands) (n : Nat) : (hearPartner c s n).1.Stands := by
  unfold hearPartner
  split
  · exact h
  split
  · exact h
  · split
    · exact takeShown_stands h _
    · exact partnerGone_stands h

theorem ccPeerLost_stands (h : c.Stands) (n : Nat) : (ccPeerLost c s n).1.Stands := by
  unfold ccPeerLost
  split
  · exact partnerGone_stands h
  split
  next hc =>
    split
    · exact h.stay_outgoing hc rfl rfl rfl
    · exact h
  · exact h

theorem hearCall_stands (h : c.Stands) (a n k : Nat) : (hearCall c s a n k).1.Stands := by
  unfold hearCall
  split
  next may =>
    have idle : c.state = .idle := by
      simp only [mayOffer, Bool.and_eq_true, beq_iff_eq] at may
      exact may.1.1.1.1.1.1.1
    exact .incoming ⟨nofun, nofun, nofun⟩ (h.of_idle idle).1 rfl
  · exact h

theorem hearOffer_stands (h : c.Stands) (a n : Nat) (o : Offer) : (hearOffer c s a n o).1.Stands := by
  unfold hearOffer
  split
  next hc =>
    split
    · exact h.stay_outgoing hc rfl rfl rfl
    · exact h
  · exact h

theorem offerWindowEnd_stands (h : c.Stands) : (offerWindowEnd c s).1.Stands := by
  unfold offerWindowEnd
  split
  next hc =>
    split
    · split
      · exact failedAttempt_stands (c := { c with offerWindow := none }) (h.of_same rfl rfl rfl) hc
      · exact h.leave_outgoing hc rfl rfl ⟨nofun, nofun⟩
    · exact h
  · exact h

theorem hearPick_stands (h : c.Stands) (x a n i : Nat) (m : Mode) : (hearPick c s x a n i m).1.Stands := by
  unfold hearPick
  dsimp only
  split
  next hi =>
    split
    · split
      · exact h.leave_incoming hi rfl rfl ⟨nofun, nofun, nofun⟩
      · exact ccIdle_stands _
    · split <;> exact h
  · split <;> exact h

theorem takeStep_stands (h : c.Stands) (k : Option StepKind) : (takeStep c s k).1.Stands := by
  unfold takeStep
  split
  next hc =>
    split
    · exact takeClosed_stands h hc
    · exact h
  next hi =>
    split
    · split
      · exact enterIncomingDeadbus_stands h hi
      · exact h
    · exact enterIncomingRelease_stands h hi
    · exact h
  · exact h

theorem takeEnd_stands (h : c.Stands) : (takeEnd c).1.Stands := by
  unfold takeEnd
  split
  · exact ccIdle_stands _
  · exact h

theorem takeHold_stands (h : c.Stands) : (takeHold c s).1.Stands := by
  unfold takeHold
  split
  · exact h
  split
  · exact ccIdle_stands _
  · exact giveUp_stands _ _
  all_goals exact h

theorem ccHandoverAbort_stands (h : c.Stands) (a : Ask) : (ccHandoverAbort c s a).1.Stands := by
  unfold ccHandoverAbort
  dsimp only
  split
  next r _ =>
    split
    · exact dropCall_stands c s r .tool
    · exact dropCall_stands c s r .tool
    · exact dropCall_stands c s r .tool
    all_goals exact h
  · exact h

theorem ccHandoverRequest_stands (h : c.Stands) (a : Ask) : (ccHandoverRequest c s a).1.Stands := by
  unfold ccHandoverRequest
  split
  next may => exact openCall_stands (h.of_idle (mayCall_idle may)).2 _
  · exact h

/-- Whatever reaches the CC leaves it on one side. -/
theorem ccHandle_stands (m : CcMsg) (s : State) (h : s.cc.Stands) : (ccHandle m s).1.Stands := by
  cases m with
  | threshold a b => exact thresholdChange_stands h a b
  | setChanged a b => exact setChanged_stands h a b
  | startFail =>
      simp only [ccHandle, ccStartFail]
      split
      · split
        · exact giveUpWith_stands _ _ _ _
        · exact h
      · exact h
  | joinFail =>
      simp only [ccHandle, ccJoinFail]
      split
      · split
        · exact giveUpWith_stands _ _ _ _
        · exact h
      · exact h
  | tripFail =>
      simp only [ccHandle, ccTripFail]
      split
      · split
        · exact ccIdle_stands _
        · exact h
      · exact h
  | rampRefused =>
      simp only [ccHandle, ccRampRefused]
      split
      · split
        · exact ccIdle_stands _
        · exact h
      · exact h
  | rampAbandoned =>
      simp only [ccHandle, ccRampAbandoned]
      split
      · split
        · exact ccIdle_stands _
        · exact h
      · exact h
  | tripIssued o =>
      simp only [ccHandle, ccTripIssued]
      split
      next hc =>
        split
        · exact h.stay_outgoing hc rfl rfl rfl
        · exact h
      · exact h
  | busLive b => exact checkDeadbus_stands h
  | showActive b => exact showChange_stands h b
  | peerLost n => exact ccPeerLost_stands h n
  | partnerState n => exact hearPartner_stands h n
  | serve => exact serve_stands h
  | checkReady =>
      simp only [ccHandle, checkReady]
      split
      next hi =>
        split
        · exact prepareSet_stands h hi
        · exact h
      · exact h
  | checkSet =>
      simp only [ccHandle, checkSet]
      split
      · split
        · exact dropCall_stands _ _ _ _
        · exact h
      · exact h
  | checkDeadbus => exact checkDeadbus_stands h
  | checkRelease =>
      simp only [ccHandle, checkRelease]
      split
      · split
        · exact ccIdle_stands _
        · exact h
      · exact h
  | callFrame a n k => exact hearCall_stands h a n k
  | offerFrame a n o => exact hearOffer_stands h a n o
  | pickFrame x a n i m => exact hearPick_stands h x a n i m
  | readyFrame x a n =>
      simp only [ccHandle]
      split
      next hc =>
        split
        · exact takeReady_stands h hc
        · exact h
      · exact h
  | stepFrame x a n k =>
      simp only [ccHandle]
      split
      · exact takeStep_stands h k
      · exact h
  | endFrame x a n =>
      simp only [ccHandle]
      split
      · exact takeEnd_stands h
      · exact h
  | abortFrame x a n w =>
      simp only [ccHandle]
      split
      · exact partnerGone_stands (h.of_same rfl rfl rfl)
      · exact h
  | holdFrame x a n =>
      simp only [ccHandle]
      split
      · exact takeHold_stands h
      · exact h
  | offerWindow => exact offerWindowEnd_stands h
  | offerTimer =>
      simp only [ccHandle]
      split
      · exact ccIdle_stands _
      · exact h
  | retryWait =>
      simp only [ccHandle, retryWaitEnd]
      split
      next hc =>
        split
        · exact sendCall_stands h hc
        · exact h
      · exact h
  | prepLimit =>
      simp only [ccHandle, prepLimitEnd]
      split
      next hc =>
        split
        · exact failedAttempt_stands h hc
        · exact h
      · exact h
  | prepTimeout =>
      simp only [ccHandle, prepTimeoutEnd]
      split
      · split
        · exact giveUpWith_stands _ _ _ _
        · exact h
      · exact h
  | gapLimit =>
      simp only [ccHandle, gapLimitEnd]
      split
      · exact h
      split
      next hc => exact enterOutgoingRelease_stands h hc
      · exact giveUpWith_stands _ _ _ _
      · exact h
  | endWait =>
      simp only [ccHandle]
      split
      · exact ccIdle_stands _
      · exact h
  | handoverRequest a => exact ccHandoverRequest_stands h a
  | handoverAbort a => exact ccHandoverAbort_stands h a

end

theorem deliver_stands (r : Report) (s : State) (h : s.cc.Stands) : (deliver r s).1.cc.Stands := by
  cases r with
  | cc m => exact ccHandle_stands m s h
  | _ => exact h

theorem sidesSound_invariant : GroupInvariant SidesSound where
  fresh _ _ := (sidesSound_iff _).mpr (.idle rfl rfl rfl)
  told r s h := (sidesSound_iff _).mpr (deliver_stands r s ((sidesSound_iff s).mp h))
  same s t _ hc _ _ h := by rwa [sidesSound_iff, hc, ← sidesSound_iff]

end Sys2Proof.Machine
end

section
/-! SUPPORT. The transmit queue: at most 8 frames, at most 6 attempts each, a sixth only under transmission (R168, R170). -/

namespace Sys2Proof.Machine

/-! ### Lists of frames -/

/-- At most 8 frames, the first with at most `limit` attempts, the others with at most 5. -/
def FramesSound (limit : Nat) (q : List TxFrame) : Prop :=
  q.length ≤ 8 ∧ (∀ f ∈ q.head?, f.attempts ≤ limit) ∧ ∀ g ∈ q.tail, g.attempts ≤ 5

/-- The most attempts the head can have behind it. -/
def attemptLimit (sending : Bool) : Nat := if sending then 6 else 5

/-- The queue of an LC. -/
def Lc.Sound (l : Lc) : Prop := FramesSound (attemptLimit l.sending) l.queue

theorem queueSound_iff (s : State) : QueueSound s ↔ s.lc.Sound := by
  unfold QueueSound Lc.Sound FramesSound attemptLimit
  cases s.lc.queue with
  | nil => simp
  | cons f rest => simp

theorem framesSound_nil (n : Nat) : FramesSound n [] := ⟨Nat.zero_le _, nofun, nofun⟩

namespace FramesSound

variable {n : Nat} {q : List TxFrame}

/-- A queue whose frames all have at most 5 attempts behind them. -/
theorem of_all (hl : q.length ≤ 8) (h : ∀ g ∈ q, g.attempts ≤ 5) (hn : 5 ≤ n) : FramesSound n q :=
  ⟨hl, fun f hf => (h f (List.mem_of_mem_head? hf)).trans hn, fun g hg => h g (List.mem_of_mem_tail hg)⟩

theorem all_of_five (h : FramesSound 5 q) : ∀ g ∈ q, g.attempts ≤ 5 := by
  obtain ⟨-, head, rest⟩ := h
  cases q with
  | nil => nofun
  | cons f q => exact List.forall_mem_cons.mpr ⟨head f rfl, rest⟩

/-- The queue without its head. -/
theorem drop_head {f : TxFrame} (h : FramesSound n (f :: q)) : FramesSound 5 q := by
  obtain ⟨few, -, rest⟩ := h
  exact of_all (Nat.le_of_succ_le few) rest (Nat.le_refl 5)

/-- The head replaced. -/
theorem set_head {f g : TxFrame} {m : Nat} (h : FramesSound n (f :: q)) (hg : g.attempts ≤ m) :
    FramesSound m (g :: q) := by
  obtain ⟨few, -, rest⟩ := h
  exact ⟨few, fun x hx => by cases hx; exact hg, rest⟩

/-- A frame without an attempt behind it put at the end. -/
theorem append {f : TxFrame} (h : FramesSound n q) (hl : q.length < 8) (hf : f.attempts = 0) :
    FramesSound n (q ++ [f]) := by
  obtain ⟨-, head, rest⟩ := h
  refine ⟨by simpa using hl, ?_, ?_⟩
  · cases q with
    | nil => simp [hf]
    | cons x q => exact head
  · intro g hg
    cases q with
    | nil => cases hg
    | cons x q =>
        rcases List.mem_append.mp hg with hg | hg
        · exact rest g hg
        · rw [List.mem_singleton.mp hg, hf]; omega

/-- Frames taken out of the queue, the head perhaps among them. -/
theorem filter (h : FramesSound n q) (hn : 5 ≤ n) (p : TxFrame → Bool) : FramesSound n (q.filter p) := by
  have few : (q.filter p).length ≤ 8 := (List.length_filter_le _ _).trans h.1
  cases q with
  | nil => exact framesSound_nil n
  | cons f q =>
      have behind : ∀ g ∈ q.filter p, g.attempts ≤ 5 := fun g hg => h.2.2 g (List.mem_of_mem_filter hg)
      by_cases hf : p f
      · rw [List.filter_cons_of_pos hf] at few ⊢
        exact ⟨few, h.2.1, behind⟩
      · rw [List.filter_cons_of_neg hf] at few ⊢
        exact of_all few behind hn

end FramesSound

/-! ### A waiting STATE replaced -/

theorem replaceState_length {f : TxFrame} {q r : List TxFrame} (h : replaceState f q = some r) :
    r.length = q.length := by
  induction q generalizing r with
  | nil => cases h
  | cons x q ih =>
      unfold replaceState at h
      split at h
      · cases h; rfl
      · obtain ⟨r', hr, rfl⟩ := Option.map_eq_some_iff.mp h
        simp [ih hr]

theorem mem_replaceState {f g : TxFrame} {q r : List TxFrame} (h : replaceState f q = some r) (hg : g ∈ r) :
    g = f ∨ g ∈ q := by
  induction q generalizing r with
  | nil => cases h
  | cons x q ih =>
      unfold replaceState at h
      split at h
      · cases h
        exact (List.mem_cons.mp hg).imp id (List.mem_cons_of_mem x)
      · obtain ⟨r', hr, rfl⟩ := Option.map_eq_some_iff.mp h
        rcases List.mem_cons.mp hg with rfl | hg
        · exact .inr List.mem_cons_self
        · exact (ih hr hg).imp id (List.mem_cons_of_mem x)

theorem replaceState_sound {f : TxFrame} {q r : List TxFrame} (hf : f.attempts = 0)
    (h : FramesSound 5 q) (hr : replaceState f q = some r) : FramesSound 5 r := by
  refine .of_all (replaceState_length hr ▸ h.1) (fun g hg => ?_) (Nat.le_refl 5)
  rcases mem_replaceState hr hg with rfl | hg
  · omega
  · exact h.all_of_five g hg

/-- A head under transmission stays where it is. -/
theorem replaceWaiting_sound {f : TxFrame} {b : Bool} {q r : List TxFrame} (hf : f.attempts = 0)
    (h : FramesSound (attemptLimit b) q) (hr : replaceWaiting f b q = some r) : FramesSound (attemptLimit b) r := by
  cases b with
  | false => exact replaceState_sound hf h hr
  | true =>
      cases q with
      | nil => cases hr
      | cons x q =>
          obtain ⟨r', hr', rfl⟩ := Option.map_eq_some_iff.mp hr
          have behind := replaceState_sound hf h.drop_head hr'
          have few : r'.length = q.length := replaceState_length hr'
          exact ⟨by simpa [few] using h.1, h.2.1, behind.all_of_five⟩

/-! ### The LC's acts -/

namespace Lc.Sound

variable {l m : Lc}

/-- Only the queue and the mark of transmission matter. -/
theorem of_same (h : l.Sound) (hq : m.queue = l.queue) (hs : m.sending = l.sending) : m.Sound := by
  unfold Sound at *
  rwa [hq, hs]

theorem of_five (h : FramesSound 5 l.queue) : l.Sound := by
  cases hs : l.sending with
  | false => unfold Sound; rwa [hs]
  | true => unfold Sound; rw [hs]; exact .of_all h.1 h.all_of_five (by decide)

end Lc.Sound

open Lc

variable {l : Lc}

theorem kick_sound (h : l.Sound) (station : Nat) : (kick l station).Sound := h.of_same rfl rfl

theorem five_le_attemptLimit (b : Bool) : 5 ≤ attemptLimit b := by cases b <;> decide

theorem offerFrame_sound (h : l.Sound) (station : Nat) (g : TxFrame) : (offerFrame l station g).1.Sound := by
  unfold offerFrame
  dsimp only
  split
  · exact h
  split
  · exact h
  split
  next q hq =>
    refine kick_sound (l := { l with queue := q }) ?_ station
    split at hq
    · exact replaceWaiting_sound rfl h hq
    · cases hq
  · split
    next room => exact kick_sound (l := { l with queue := l.queue ++ [_] }) (FramesSound.append h room rfl) station
    · exact h

theorem offerPart_sound (h : l.Sound) (station : Nat) (a : Answer) : (offerPart l station a).1.Sound := by
  have offered := offerFrame_sound h station (answerFrame a a.next)
  unfold offerPart
  dsimp only
  split
  · split <;> exact offered.of_same rfl rfl
  · exact h.of_same rfl rfl

theorem giveAnswer_sound (h : l.Sound) (station : Nat) (ask : Ask) (r : Result) (data : List Byte) :
    (giveAnswer l station ask r data).1.Sound :=
  offerPart_sound (l := { l with answerSeq := l.answerSeq + 1 }) (h.of_same rfl rfl) station _

theorem frameLeft_sound (h : l.Sound) (station : Nat) (f : TxFrame) : (frameLeft l station f).Sound := by
  unfold frameLeft
  split
  · exact h
  next n _ =>
    have ready : Lc.Sound (if l.restart = .waiting n then { l with restart := .ready } else l) := by
      split
      · exact h.of_same rfl rfl
      · exact h
    dsimp only
    split
    · split
      · exact offerPart_sound ready station _
      · exact ready
    · exact ready

theorem accessDone_sound (h : l.Sound) : (accessDone l).Sound := by
  unfold accessDone
  split
  next f rest _ hq =>
    split
    · exact h
    next idle =>
      have limit : attemptLimit l.sending = 5 := by simp [attemptLimit, idle]
      unfold Lc.Sound at h
      rw [hq, limit] at h
      exact h.set_head (Nat.succ_le_succ (h.2.1 f rfl))
  · exact h

theorem frameSent_sound (h : l.Sound) (station : Nat) : (frameSent l station).Sound := by
  unfold frameSent
  split
  next f rest _ hq =>
    unfold Lc.Sound at h
    rw [hq] at h
    exact kick_sound (frameLeft_sound (.of_five h.drop_head) station f) station
  · exact h

theorem collide_sound (h : l.Sound) (station : Nat) : (collide l station).Sound := by
  unfold collide
  split
  next f rest hs hq =>
    unfold Lc.Sound at h
    rw [hq] at h
    dsimp only
    split
    · exact kick_sound (frameLeft_sound (.of_five h.drop_head) station f) station
    next few =>
      split
      · exact kick_sound (.of_five h.drop_head) station
      · refine kick_sound (.of_five ?_) station
        rw [hq]
        exact h.set_head (by omega)
  · exact h

theorem backoffEnd_sound (h : l.Sound) (station : Nat) : (backoffEnd l station).Sound := by
  unfold backoffEnd
  split
  · exact h
  · exact h.of_same rfl rfl

theorem startBit_sound (h : l.Sound) (station : Nat) : (startBit l station).Sound := by
  unfold startBit
  split
  · exact h.of_same rfl rfl
  · exact h

theorem setDuplicate_sound (h : l.Sound) (station : Nat) : (setDuplicate l station).1.Sound := by
  unfold setDuplicate
  split
  · exact h
  · exact FramesSound.filter h (five_le_attemptLimit _) _

theorem takeTool_sound (h : l.Sound) (station : Nat) (ask : Ask) (k : SubKind) (params : List Byte) :
    (takeTool l station ask k params).1.Sound := by
  unfold takeTool
  split
  · exact (giveAnswer_sound h station ask .done []).of_same rfl rfl
  · exact h

theorem toolCommand_sound (h : l.Sound) (s : State) (hd : Header) (payload : List Byte) :
    (toolCommand l s hd payload).1.Sound := by
  unfold toolCommand
  split
  · split
    · exact h
    dsimp only
    split
    · exact giveAnswer_sound h _ _ _ _
    split
    · exact giveAnswer_sound h _ _ _ _
    split
    · exact giveAnswer_sound h _ _ _ _
    split
    · exact giveAnswer_sound h _ _ _ _
    · exact takeTool_sound h _ _ _ _
  · exact h

theorem dispatchFrame_sound (h : l.Sound) (s : State) (hd : Header) (kind : Byte) (payload : List Byte) :
    (dispatchFrame l s hd kind payload).1.Sound := by
  unfold dispatchFrame
  split
  · exact h
  split
  · exact h
  split
  · exact toolCommand_sound h s hd payload
  · exact h

theorem frameEnd_sound (h : l.Sound) (s : State) (hd : Header) (kind : Byte) (payload : List Byte) :
    (frameEnd l s hd kind payload).1.Sound := by
  have ended : (kick { l with rx := Rx.between } s.cfg.station).Sound := h.of_same rfl rfl
  unfold frameEnd
  split
  · exact h
  dsimp only
  split
  · dsimp only [quiet]
    split
    · exact h
    · exact ended
  split
  · exact ended
  split
  · exact setDuplicate_sound ended _
  · exact dispatchFrame_sound ended s hd kind payload

theorem rawEnd_sound (h : l.Sound) (s : State) (bits : List Bool) : (rawEnd l s bits).1.Sound := by
  unfold rawEnd
  split
  · exact h
  split
  · exact frameEnd_sound h s _ _ _
  · dsimp only [quiet]
    split
    · exact h
    · exact h.of_same rfl rfl

theorem lcHandle_sound (m : LcMsg) (s : State) (h : s.lc.Sound) : (lcHandle m s).1.Sound := by
  cases m with
  | offer f => exact offerFrame_sound h _ f
  | answer ask r data => exact giveAnswer_sound h _ ask r data
  | frame hd kind payload => exact frameEnd_sound h s hd kind payload
  | raw bits => exact rawEnd_sound h s bits
  | startBit => exact startBit_sound h _
  | accessDone => exact accessDone_sound h
  | sent => exact frameSent_sound h _
  | collision place readback =>
      dsimp only [lcHandle, quiet]
      split
      · exact collide_sound h _
      · exact h
  | backoffEnd => exact backoffEnd_sound h _

theorem deliver_lcSound (r : Report) (s : State) (h : s.lc.Sound) : (deliver r s).1.lc.Sound := by
  cases r with
  | lc m => exact lcHandle_sound m s h
  | _ => exact h

theorem queueSound_invariant : GroupInvariant QueueSound where
  fresh _ _ := (queueSound_iff _).mpr (framesSound_nil 5)
  told r s h := (queueSound_iff _).mpr (deliver_lcSound r s ((queueSound_iff s).mp h))
  same s t _ _ hq hs h := (queueSound_iff t).mpr (((queueSound_iff s).mp h).of_same hq hs)

/-- Settles O58: the entries of the peer table, the place of the CC and the transmit queue are kept sound by every report,
and every start begins with them sound. -/
theorem stepsKeepTheGroupViewSound : Obligations.StepsKeepTheGroupViewSound := fun _ _ h =>
  ⟨peersSound_invariant.of_step h, sidesSound_invariant.of_step h, queueSound_invariant.of_step h⟩

end Sys2Proof.Machine
end

section
/-! SUPPORT. The site clock between two starts: who tells its value, and that it never goes back (R30, R34). -/

namespace Sys2Proof.Machine

/-! ### Reports that tell no value of the clock -/

@[simp] theorem untimed_pcu (m : PcuMsg) : Report.untimed (.pcu m) = true := rfl
@[simp] theorem untimed_fli (m : FliMsg) : Report.untimed (.fli m) = true := rfl
@[simp] theorem untimed_du (m : DuMsg) : Report.untimed (.du m) = true := rfl
@[simp] theorem untimed_cc (m : CcMsg) : Report.untimed (.cc m) = true := rfl
@[simp] theorem untimed_sc (m : ScMsg) : Report.untimed (.sc m) = true := rfl
@[simp] theorem untimed_fu (m : FuMsg) : Report.untimed (.fu m) = true := rfl
@[simp] theorem untimed_lc (m : LcMsg) : Report.untimed (.lc m) = true := rfl
@[simp] theorem untimed_sr (m : SrMsg) : Report.untimed (.sr m) = true := rfl
@[simp] theorem untimed_reportable : Report.untimed (.pt .reportable) = true := rfl
@[simp] theorem untimed_cost (p : Nat) : Report.untimed (.bu (.cost p)) = true := rfl
@[simp] theorem untimed_lotChange (l : Lot) (rest : List Lot) : (lotChange l rest).untimed = true := rfl

theorem plain_untimed {r : Report} (h : r.plain = true) : r.untimed = true := by
  cases r with
  | bu m => cases h
  | pt m =>
      cases m with
      | intervalClosed c => cases h
      | _ => rfl
  | _ => rfl

@[simp] theorem computeHours_untimed (f : Fu) (s : State) : (computeHours f s).2.all Report.untimed = true := by
  simp only [computeHours, thresholdReports]
  split <;> simp

@[simp] theorem burnOne_untimed (f : Fu) : (burnOne f).2.all Report.untimed = true := by
  simp only [burnOne]
  (repeat' split) <;> simp

@[simp] theorem bookTest_untimed (f : Fu) (s : State) : (bookTest f s).2.all Report.untimed = true := by
  simp only [bookTest, causeCleared, enterPaused, enterFlowing]
  (repeat' split) <;> simp

@[simp] theorem shrinkLots_untimed (held : Nat) (l : List Lot) (q : Nat) :
    (shrinkLots held l q).reports.all Report.untimed = true := by
  induction l generalizing held q with
  | nil => rfl
  | cons a l ih =>
      simp only [shrinkLots]
      (repeat' split) <;> simp [ih]

@[simp] theorem reconcile_untimed (f : Fu) (s : State) (o : ReconOrigin) (p : Nat) :
    (reconcile f s o p).2.all Report.untimed = true := by
  simp only [reconcile, shrink, gain]
  (repeat' split) <;> simp

@[simp] theorem judgeClaim_untimed (f : Fu) (s : State) (d : Delivery) :
    (judgeClaim f s d).2.all Report.untimed = true := by
  simp only [judgeClaim]
  split <;> simp

@[simp] theorem clearDelivery_untimed (f : Fu) (d : Delivery) (c : EndCause) :
    (clearDelivery f d c).2.all Report.untimed = true := by
  simp only [clearDelivery, endVisit]
  (repeat' split) <;> simp

/-- The FU tells no value of the clock. -/
theorem fuHandle_untimed (m : FuMsg) (s : State) : (fuHandle m s).2.all Report.untimed = true := by
  cases m with
  | burn n => cases n <;> simp only [fuHandle, fuBurn] <;> (repeat' split) <;> simp
  | fill n => cases n <;> simp only [fuHandle, fuFill] <;> (repeat' split) <;> simp
  | _ =>
      simp only [fuHandle, levelWindow, keyChange, highChange, deliveryOpen, deliveryClose, visitFrame, visitEndFrame,
        recordExpiry, claimRepeatEnd, flowStallEnd, pauseTimerEnd, reconTimerEnd, fuReconcile, fuTankQuery, replyFrame,
        acceptVisit, endVisit, causeCleared, enterPaused, enterFlowing, thresholdReports]
      (repeat' split) <;> simp

/-! ### Reports of one value of the clock -/

/-- The value a change of the clock brings. -/
def ClockChange.value : ClockChange → Nat
  | .becomingValid v | .step v | .jump _ v => v

/-- A report the units make among themselves, that tells no value of the clock but `v`. -/
def Report.atClock (v : Nat) : Report → Bool
  | .bu (.clock c) => c.value == v
  | .pt (.intervalClosed w) => w == v
  | r => r.inner

theorem atClock_of_untimed {r : Report} (hi : r.inner = true) (hu : r.untimed = true) (v : Nat) :
    r.atClock v = true := by
  cases r with
  | bu m =>
      cases m with
      | clock c => cases hu
      | _ => rfl
  | pt m =>
      cases m with
      | intervalClosed w => cases hu
      | _ => exact hi
  | _ => exact hi

theorem all_atClock_of_untimed {l : List Report} (hi : l.all Report.inner = true) (hu : l.all Report.untimed = true)
    (v : Nat) : l.all (Report.atClock v) = true := by
  rw [List.all_eq_true] at *
  exact fun r hr => atClock_of_untimed (hi r hr) (hu r hr) v

theorem all_atClock_of_plain {l : List Report} (h : l.all Report.plain = true) (v : Nat) :
    l.all (Report.atClock v) = true := by
  refine all_atClock_of_untimed (all_inner_of_plain h) ?_ v
  rw [List.all_eq_true] at *
  exact fun r hr => plain_untimed (h r hr)

@[simp] theorem atClock_sr_touch (v : Nat) (r : RecordId) : Report.atClock v (.sr (.touch r)) = true := rfl
@[simp] theorem atClock_offer (v : Nat) (f : TxFrame) : Report.atClock v (.lc (.offer f)) = true := rfl
@[simp] theorem atClock_answer (v : Nat) (a : Ask) (r : Result) (d : List Byte) :
    Report.atClock v (.lc (.answer a r d)) = true := rfl
@[simp] theorem atClock_clock (v : Nat) (c : ClockChange) : Report.atClock v (.bu (.clock c)) = (c.value == v) := rfl
@[simp] theorem atClock_intervalClosed (v w : Nat) : Report.atClock v (.pt (.intervalClosed w)) = (w == v) := rfl
@[simp] theorem atClock_seUnits (v k : Nat) : Report.atClock v (.bu (.seUnits k)) = true := rfl
@[simp] theorem atClock_fUnits (v : Nat) (n : FeederId) (k : Nat) : Report.atClock v (.bu (.fUnits n k)) = true := rfl

/-! ### The BU and the SC -/

section
variable (v : Nat)

@[simp] theorem withInterval_atClock (b : Bu) (i : Interval) :
    (withInterval b i).2.all (Report.atClock v) = true := by
  simp only [withInterval]
  split <;> simp

theorem bookUnit_atClock (b : Bu) (i : Interval) (k : Nat) {next : Nat → BuMsg}
    (hn : ∀ k, Report.atClock v (.bu (next k)) = true) : (bookUnit b i k next).2.all (Report.atClock v) = true := by
  simp only [bookUnit, andThen_snd, List.all_append, withInterval_atClock, Bool.true_and]
  split <;> simp [hn]

/-- A close tells the floor the value it is made at. -/
theorem closeInterval_atClock (b : Bu) (s : State) : (closeInterval b s v).2.all (Report.atClock v) = true := by
  obtain ⟨before, hb, e⟩ := closeInterval_reports b s v
  have inner := closeInterval_inner b s v
  rw [e, List.append_assoc, List.all_append, Bool.and_eq_true] at inner
  have touched := all_atClock_of_untimed inner.1 (hb _ fun _ => rfl) v
  rw [e]
  simp only [List.all_append, touched, costFrames]
  split <;> simp

theorem clockChange_atClock (b : Bu) (s : State) (c : ClockChange) :
    (clockChange b s c).2.all (Report.atClock c.value) = true := by
  unfold clockChange
  split
  · split
    · exact withInterval_atClock _ _ _
    · rfl
  · split
    · exact closeInterval_atClock _ b s
    · rfl
  · split
    · split
      · exact closeInterval_atClock _ b s
      · rfl
    · rfl

theorem codeQuery_untimed (b : Bu) (a : Ask) (c : Nat) (g : Slot → List Byte) :
    (codeQuery b a c g).all Report.untimed = true := by
  simp only [codeQuery]
  (repeat' split) <;> rfl

theorem statementClose_untimed (b : Bu) (s : State) (a : Ask) (c : Nat) :
    (statementClose b s a c).2.all Report.untimed = true := by
  simp only [statementClose]
  (repeat' split) <;> rfl

/-- The BU tells the value of a change of the clock, and no other. -/
theorem buHandle_atClock (m : BuMsg) (s : State) (hm : Report.atClock v (.bu m) = true) :
    (buHandle m s).2.all (Report.atClock v) = true := by
  have inner := buHandle_inner m s
  cases m with
  | seTotal t => rfl
  | fTotal n t => rfl
  | seUnits k =>
      cases k with
      | zero => rfl
      | succ k => exact bookUnit_atClock v _ _ k fun _ => rfl
  | fUnits n k =>
      cases k with
      | zero => rfl
      | succ k => exact bookUnit_atClock v _ _ k fun _ => rfl
  | cost p => exact withInterval_atClock v _ _
  | lotChange r h => exact withInterval_atClock v _ _
  | energised n => exact withInterval_atClock v _ _
  | secondMark => exact withInterval_atClock v _ _
  | clock c =>
      rw [atClock_clock, beq_iff_eq] at hm
      exact hm ▸ clockChange_atClock s.bu s c
  | costFrame n e x c => rfl
  | statementClose a c => exact all_atClock_of_untimed inner (statementClose_untimed _ _ _ _) v
  | accountQuery a c => exact all_atClock_of_untimed inner (codeQuery_untimed _ _ _ _) v
  | statementQuery a c => exact all_atClock_of_untimed inner (codeQuery_untimed _ _ _ _) v
  | journalQuery a n => rfl

theorem scHandle_atClock (m : ScMsg) (s : State) : (scHandle m s).2.all (Report.atClock v) = true := by
  refine all_atClock_of_untimed (scHandle_inner m s) ?_ v
  by_cases h : m = .second
  · subst h
    simp only [scHandle]
    split
    · rfl
    · simp [scSecond, List.all_map, Report.untimed]
  · rw [List.all_eq_true]
    exact fun r hr => plain_untimed (List.all_eq_true.mp (scHandle_plain m s h) r hr)

/-! ### The other units -/

theorem pcuHandle_atClock (m : PcuMsg) (s : State) : (pcuHandle m s).2.all (Report.atClock v) = true := by
  refine all_atClock_of_untimed (pcuHandle_inner m s) ?_ v
  cases m with
  | pulse c gap active =>
      have totals : ∀ t, (totalReports c t).all Report.untimed = true := by cases c <;> exact fun _ => rfl
      simp only [pcuHandle, pcuStretch, pcuPulse]
      (repeat' split) <;> simp [totals]
  | window c =>
      have figures : (figureReports c).all Report.untimed = true := by cases c <;> rfl
      simp only [pcuHandle, pcuWindow]
      split <;> simp [figures]

theorem fliTake_untimed (x : Fli) (i : Input) (b : Bool) : (fliTake x i b).2.all Report.untimed = true := by
  have feedback : ∀ (y : Fli) (d : Device) (u : List Report), u.all Report.untimed = true →
      (fliFeedback y d b u).2.all Report.untimed = true := by
    intro y d u hu
    simp only [fliFeedback]
    split
    · exact hu
    split
    · cases d <;> rfl
    · rfl
  cases i with
  | brk => exact feedback _ _ _ rfl
  | ffb n => exact feedback _ _ _ rfl
  | _ => rfl

theorem fliChange_atClock (x : Fli) (i : Input) (b : Bool) : (fliChange x i b).2.all (Report.atClock v) = true := by
  unfold fliChange
  split
  · rfl
  · exact all_atClock_of_untimed (fliTake_inner x i b) (fliTake_untimed x i b) v

theorem fliHandle_atClock (m : FliMsg) (s : State) : (fliHandle m s).2.all (Report.atClock v) = true := by
  cases m with
  | level i b held =>
      simp only [fliHandle, fliLevel]
      split
      · rfl
      split
      · exact fliChange_atClock v _ i b
      · rfl
  | reportKept =>
      simp only [fliHandle, fliReportKept]
      split
      · rfl
      · exact fliChange_atClock v _ _ _
  | _ => exact all_atClock_of_plain (fliHandle_plain _ s (by simp) (by simp)) v

/-- Of the reports made at a value of the clock come such reports only, the PT and the LC apart whatever reaches them. -/
theorem deliver_atClock (r : Report) (s : State) (hr : r.atClock v = true ∨ r.untimed = true)
    (hpt : ∀ m, r ≠ .pt m) (hlc : ∀ m, r ≠ .lc m) : (deliver r s).2.all (Report.atClock v) = true := by
  cases r with
  | pcu m => exact pcuHandle_atClock v m s
  | fli m => exact fliHandle_atClock v m s
  | pt m => exact absurd rfl (hpt m)
  | du m => exact all_atClock_of_plain (duHandle_plain m s) v
  | cc m => exact all_atClock_of_plain (ccHandle_plain m s) v
  | sc m => exact scHandle_atClock v m s
  | fu m => exact all_atClock_of_untimed (fuHandle_inner m s) (fuHandle_untimed m s) v
  | bu m =>
      refine buHandle_atClock v m s (hr.elim id fun hu => ?_)
      cases m with
      | clock c => cases hu
      | _ => rfl
  | lc m => exact absurd rfl (hlc m)
  | sr m => cases m <;> rfl

end

/-! ### The PT -/

/-- The clock of `q` stands no lower than that of `p`, valid, and nor does its floor where `p` has it at or below the
clock. -/
structure Pt.Later (p q : Pt) : Prop where
  valid : q.clockValid = true
  clock : p.clock ≤ q.clock
  floor : p.floor ≤ p.clock → p.floor ≤ q.floor ∧ q.floor ≤ q.clock

/-- The same of an act, which tells no value of the clock but the one it leaves. -/
def Pt.Advances (p : Pt) (x : Act Pt) : Prop := p.Later x.1 ∧ x.2.all (Report.atClock x.1.clock) = true

namespace Pt

variable {p q : Pt}

theorem Later.of_same (hv : p.clockValid = true) (h1 : q.clockValid = p.clockValid) (h2 : q.clock = p.clock)
    (h3 : q.floor = p.floor) : p.Later q :=
  ⟨h1.trans hv, h2.ge, fun h => ⟨h3.ge, by omega⟩⟩

/-- An act that leaves clock and floor as they are. -/
theorem Advances.of_same (hv : p.clockValid = true) {rs : List Report} (h1 : q.clockValid = p.clockValid)
    (h2 : q.clock = p.clock) (h3 : q.floor = p.floor) (hr : rs.all Report.plain = true) : p.Advances (q, rs) :=
  ⟨.of_same hv h1 h2 h3, all_atClock_of_plain hr _⟩

theorem Advances.of_from {x : Act Pt} (h : q.Advances x) (hc : q.clock = p.clock) (hf : q.floor = p.floor) :
    p.Advances x := by
  obtain ⟨⟨valid, clock, floor⟩, told⟩ := h
  rw [hc] at clock
  rw [hc, hf] at floor
  exact ⟨⟨valid, clock, floor⟩, told⟩

/-- Behind it one that only adds plain reports. -/
theorem Advances.andThen {x : Act Pt} (h : p.Advances x) {f : Pt → Act Pt} (hv : (f x.1).1.clockValid = x.1.clockValid)
    (hc : (f x.1).1.clock = x.1.clock) (hf : (f x.1).1.floor = x.1.floor) (hr : (f x.1).2.all Report.plain = true) :
    p.Advances (x.andThen f) := by
  obtain ⟨⟨valid, clock, floor⟩, told⟩ := h
  refine ⟨⟨hv.trans valid, by rw [andThen_fst, hc]; exact clock, fun h => ?_⟩, ?_⟩
  · rw [andThen_fst, hc, hf]
    exact floor h
  · rw [andThen_fst, andThen_snd, hc, List.all_append, told, all_atClock_of_plain hr, Bool.and_self]

/-- A clock that moves on tells the value it moves to. -/
theorem moveClock_advances (p : Pt) {v : Nat} {c : ClockChange} (hv : p.clock ≤ v) (hc : c.value = v) :
    p.Advances (moveClock p v c) := by
  unfold moveClock
  dsimp only
  refine ⟨⟨rfl, hv, fun hf => ?_⟩, ?_⟩
  · dsimp only
    split <;> omega
  · dsimp only
    split <;> simp [hc]

theorem hearClock_advances (hv : p.clockValid = true) (b : Bool) (v : Nat) : p.Advances (hearClock p b v) := by
  have still : p.Advances (quiet p) := .of_same hv rfl rfl rfl rfl
  simp only [hearClock, hv, if_true]
  split
  · exact still
  split
  · exact moveClock_advances p (by omega) rfl
  · exact still

theorem clockSecond_advances (hv : p.clockValid = true) : p.Advances (clockSecond p) := by
  unfold clockSecond
  split
  · split
    · exact moveClock_advances p (Nat.le_succ _) rfl
    · exact .of_same hv rfl rfl rfl rfl
  · exact .of_same hv rfl rfl rfl rfl

theorem timeSetClock_advances (hv : p.clockValid = true) (a : Ask) (v : Nat) : p.Advances (timeSetClock p a v) := by
  rw [timeSetClock, if_pos hv]
  split
  · exact .of_same hv rfl rfl rfl rfl
  split
  · exact .of_same hv rfl rfl rfl rfl
  · have moved := moveClock_advances p (v := v) (c := .jump p.clock v) (by omega) rfl
    exact moved.andThen rfl rfl rfl rfl

/-- The table with a station's fields entered, and nothing else done yet. -/
def entered (p : Pt) (n : Nat) (f : PeerFields) : Pt :=
  { p with entries := putEntry p.entries ⟨n, f, ageOf f.heartbeat⟩ }

theorem takeState_advances (hv : p.clockValid = true) (s : State) (n : Nat) (f : PeerFields) :
    p.Advances (takeState p s n f) := by
  have moved : p.Advances (hearClock (p.entered n f) f.clockValid f.clock) :=
    (hearClock_advances (p := p.entered n f) hv f.clockValid f.clock).of_from rfl rfl
  exact moved.andThen rfl rfl rfl (by simp)

theorem hearState_advances (hv : p.clockValid = true) (s : State) (h : Header) (payload : List Byte) :
    p.Advances (hearState p s h payload) := by
  by_cases hf : StateFails h payload
  · rw [hearState_fails hf]
    exact .of_same hv rfl rfl rfl rfl
  by_cases hn : p.admits h.sender.toNat
  · rw [hearState_taken hf hn]
    exact takeState_advances hv s _ _
  · obtain ⟨unknown, full⟩ := not_admits_iff.mp hn
    rw [hearState_full hf unknown full]
    exact .of_same hv rfl rfl rfl rfl

end Pt

/-- Whatever reaches the PT, a floor to write apart, moves a valid clock on, if at all. -/
theorem ptHandle_advances (m : PtMsg) (s : State) (hv : s.pt.clockValid = true)
    (hm : Report.untimed (.pt m) = true) : s.pt.Advances (ptHandle m s) := by
  have still : s.pt.Advances (quiet s.pt) := .of_same hv rfl rfl rfl rfl
  have sent : s.pt.Advances (sendState s.pt s) := .of_same hv rfl rfl rfl rfl
  cases m with
  | reportable => simp only [ptHandle]; split; exacts [sent, still]
  | ownChanged => exact .of_same hv rfl rfl rfl (recompute_plain s.pt s)
  | heartbeat => simp only [ptHandle]; split; exacts [sent, still]
  | showChanged => exact sent.andThen rfl rfl rfl (recompute_plain _ s)
  | stateFrame h payload => exact Pt.hearState_advances hv s h payload
  | age n =>
      simp only [ptHandle, loseEntry]
      split
      · exact still
      · exact .of_same hv rfl rfl rfl (by simp)
  | second => exact Pt.clockSecond_advances hv
  | runSecond => simp only [ptHandle]; split <;> exact .of_same hv rfl rfl rfl rfl
  | timeSet a v => exact Pt.timeSetClock_advances hv a v
  | intervalClosed v => cases hm

/-! ### From the moment the clock stands -/

/-- The clock stands at `v`, later than that of `p`. -/
def StandsAt (p : Pt) (v : Nat) (s : State) : Prop := p.Later s.pt ∧ s.pt.clock = v

/-- Reports at its value leave a clock where it stands, and write no other floor. -/
theorem deliver_standsAt {p : Pt} {v : Nat} (r : Report) (s : State) (h : StandsAt p v s) (hr : r.atClock v = true) :
    StandsAt p v (deliver r s).1 ∧ (deliver r s).2.all (Report.atClock v) = true := by
  obtain ⟨⟨valid, clock, floor⟩, at_v⟩ := h
  cases r with
  | pt m =>
      cases m with
      | intervalClosed w =>
          rw [atClock_intervalClosed, beq_iff_eq] at hr
          subst hr
          exact ⟨⟨⟨valid, clock, fun hf => ⟨by dsimp only [deliver, ptHandle]; omega, at_v.ge⟩⟩, at_v⟩, rfl⟩
      | reportable =>
          refine ⟨?_, ?_⟩
          · simp only [deliver, ptHandle]
            split <;> exact ⟨⟨valid, clock, floor⟩, at_v⟩
          · refine all_atClock_of_plain ?_ v
            simp only [deliver, ptHandle]
            split <;> rfl
      | ownChanged => exact ⟨⟨⟨valid, clock, floor⟩, at_v⟩, all_atClock_of_plain (recompute_plain s.pt s) v⟩
      | showChanged =>
          exact ⟨⟨⟨valid, clock, floor⟩, at_v⟩, all_atClock_of_plain (by simp [deliver, ptHandle]) v⟩
      | _ => cases hr
  | lc m =>
      refine ⟨⟨⟨valid, clock, floor⟩, at_v⟩, ?_⟩
      cases m with
      | offer f => rfl
      | answer a r data => rfl
      | _ => cases hr
  | _ => exact ⟨⟨⟨valid, clock, floor⟩, at_v⟩, deliver_atClock v _ s (.inl hr) nofun nofun⟩

theorem settle_standsAt {p : Pt} {v : Nat} (n : Nat) {rs : List Report} {s : State} (h : StandsAt p v s)
    (hr : rs.all (Report.atClock v) = true) : p.Later (settle n rs s).pt :=
  (settle_invariant_of (StandsAt p v) (Report.atClock v) deliver_standsAt n rs s h hr).1

/-! ### A command -/

/-- What a frame hands over: nothing, or one report to another unit, that tells no value of the clock. -/
def HandsOne (rs : List Report) : Prop := rs = [] ∨ ∃ r, rs = [r] ∧ r.untimed = true ∧ ∀ m, r ≠ .lc m

theorem frameReport_handsOne (h : Header) (k : Kind) (p : List Byte) : HandsOne (frameReport h k p) := by
  cases k with
  | fillClaim => exact .inl rfl
  | visitReply => exact .inl rfl
  | fillDone => exact .inl rfl
  | toolCommand => exact .inl rfl
  | answer => exact .inl rfl
  | _ => exact .inr ⟨_, rfl, rfl, nofun⟩

theorem takeTool_handsOne (l : Lc) (station : Nat) (a : Ask) (k : SubKind) (params : List Byte) :
    HandsOne (takeTool l station a k params).2 := by
  cases k with
  | restart => exact .inl rfl
  | _ => exact .inr ⟨_, rfl, rfl, nofun⟩

theorem dispatchFrame_handsOne (l : Lc) (s : State) (h : Header) (kind : Byte) (p : List Byte) :
    HandsOne (dispatchFrame l s h kind p).2 := by
  unfold dispatchFrame
  split
  · exact .inl rfl
  split
  · exact .inl rfl
  split
  · unfold toolCommand
    split
    · split
      · exact .inl rfl
      dsimp only
      split
      · exact .inl rfl
      split
      · exact .inl rfl
      split
      · exact .inl rfl
      split
      · exact .inl rfl
      · exact takeTool_handsOne _ _ _ _ _
    · exact .inl rfl
  · exact frameReport_handsOne h _ p

theorem frameEnd_handsOne (l : Lc) (s : State) (h : Header) (kind : Byte) (p : List Byte) :
    HandsOne (frameEnd l s h kind p).2 := by
  unfold frameEnd
  split
  · exact .inl rfl
  dsimp only
  split
  · exact .inl rfl
  split
  · exact .inl rfl
  split
  · unfold setDuplicate
    split
    · exact .inl rfl
    · exact .inr ⟨_, rfl, rfl, nofun⟩
  · exact dispatchFrame_handsOne _ s h kind p

theorem lcHandle_handsOne (m : LcMsg) (s : State) : HandsOne (lcHandle m s).2 := by
  cases m with
  | frame h kind p => exact frameEnd_handsOne _ s h kind p
  | raw bits =>
      simp only [lcHandle, rawEnd]
      split
      · exact .inl rfl
      split
      · exact frameEnd_handsOne _ s _ _ _
      · exact .inl rfl
  | _ => exact .inl rfl

/-- A report to any unit but the LC, worked off from a valid clock. -/
theorem settle_later_of_unit (n : Nat) {r : Report} {s : State} (hv : s.pt.clockValid = true)
    (hu : r.untimed = true) (hlc : ∀ m, r ≠ .lc m) : s.pt.Later (settle n [r] s).pt := by
  have still : s.pt.Later s.pt := .of_same hv rfl rfl rfl
  cases n with
  | zero => exact still
  | succ n =>
      rw [settle_cons, List.append_nil]
      cases r with
      | pt m =>
          obtain ⟨later, told⟩ := ptHandle_advances m s hv hu
          exact settle_standsAt n ⟨later, rfl⟩ told
      | lc m => exact absurd rfl (hlc m)
      | _ => exact settle_standsAt n ⟨still, rfl⟩ (deliver_atClock s.pt.clock _ s (.inr hu) nofun nofun)

theorem settle_later (n : Nat) {r : Report} {s : State} (hv : s.pt.clockValid = true) (hu : r.untimed = true) :
    s.pt.Later (settle n [r] s).pt := by
  cases r with
  | lc m =>
      have still : s.pt.Later s.pt := .of_same hv rfl rfl rfl
      cases n with
      | zero => exact still
      | succ n =>
          rw [settle_cons, List.append_nil]
          obtain none | ⟨q, one, untimed, away⟩ := lcHandle_handsOne m s
          · simp only [deliver, none, settle_nil]
            exact still
          · simp only [deliver, one]
            exact settle_later_of_unit n (s := { s with lc := (lcHandle m s).1 }) hv untimed away
  | _ => exact settle_later_of_unit n hv hu nofun

/-- Settles O32: a command hands over one report; what that does to the clock moves it on, and the reports it leads to
tell the value the clock stands at. -/
theorem validClocksNeverDecrease : Obligations.ValidClocksNeverDecrease := by
  intro c s t hc h hv
  obtain ⟨r, untimed, rfl⟩ := exec_runs hc h
  have later : s.pt.Later (s.run [r]).pt := by
    unfold State.run
    split
    · exact settle_later _ hv untimed
    · exact .of_same hv rfl rfl rfl
  exact ⟨later.valid, later.clock, later.floor⟩

end Sys2Proof.Machine
end

section
/-! SUPPORT. The PT's own commands: heartbeat, STATE frames, silent peers, seconds, TIME SET (O25, O27 to O31). -/

namespace Sys2Proof.Machine

/-! ### A report to the PT -/

/-- A command that reaches the PT: it takes the report, and what it reports is handed on. -/
theorem run_pt {s : State} (h : s.isUp = true) {m : PtMsg} {p : Pt} {rs : List Report}
    (hm : ptHandle m s = (p, rs)) : s.run [.pt m] = State.handOn { s with pt := p } 1 rs := by
  rw [run_one h, deliver_pt, hm]

theorem run_pt_quiet {s : State} (h : s.isUp = true) {m : PtMsg} {p : Pt} (hm : ptHandle m s = quiet p) :
    s.run [.pt m] = { s with pt := p } := by
  rw [run_pt h hm, handOn_nil]

/-- What inner reports leave of the PT, the channels and the inputs. -/
theorem handOn_inner (s : State) (k : Nat) {rs : List Report} (h : rs.all Report.inner = true) :
    (s.handOn k rs).pt.view = s.pt.view ∧ (s.handOn k rs).pcu = s.pcu ∧
      (s.handOn k rs).fli.inputs = s.fli.inputs :=
  ⟨settle_inner_pt _ _ _ h, settle_inner_pcu _ _ _ h, settle_inner_inputs _ _ _ h⟩

theorem Pt.view_eq_iff {p q : Pt} : p.view = q.view ↔ p.entries = q.entries ∧ p.tableFull = q.tableFull ∧
    p.clock = q.clock ∧ p.clockValid = q.clockValid ∧ p.second = q.second ∧ p.runSeconds = q.runSeconds := by
  simp [Pt.view]

theorem Pt.find_eq_of_entries {p q : Pt} (h : p.entries = q.entries) (n : Nat) : p.find n = q.find n := by
  simp only [Pt.find, h]

/-! ### Heartbeat (O25) -/

theorem pastStep_eight_iff (s : State) :
    s.pastStep 8 = true ↔ s.phase = .running ∨ ∃ k, s.phase = .starting k ∧ 8 ≤ k := by
  unfold State.pastStep
  cases s.phase <;> simp

theorem sendState_eq (p : Pt) (s : State) : sendState p s =
    ({ p with heartbeat := some s.cfg.heartbeat },
      [.lc (.offer { kind := .state, group := s.cfg.group, dest := 0, payload := statePayload s, attempts := 0,
                     answerOf := none })]) := rfl

theorem reportable_mem_thresholdReports (a b : Threshold) : .pt .reportable ∈ thresholdReports a b ↔ a ≠ b := by
  unfold thresholdReports
  split <;> simp [*]

theorem reportable_mem_positionReports (a b : Bool) : .pt .reportable ∈ positionReports a b ↔ a ≠ b := by
  unfold positionReports
  split <;> simp [*]

/-- Settles O25: the PT's acts that send a STATE, and the reports that ask for one. -/
theorem heartbeatsSendState : Obligations.HeartbeatsSendState := by
  refine ⟨fun s up => ⟨fun stopped => ?_, fun running => ?_⟩, fun s => ⟨fun early => ?_, fun late => ?_, rfl, ?_⟩,
    fun a b => ?_, reportable_mem_positionReports, reportable_mem_thresholdReports, fun a b => ?_⟩
  · exact congrArg Host.Outcome.next (run_pt_quiet up (by simp [ptHandle, stopped]))
  · have sent : ptHandle .heartbeat s = sendState s.pt s := by simp only [ptHandle, running, if_true]
    exact congrArg Host.Outcome.next ((run_pt up sent).trans (handOn_offer _ _ (k := 1) (by decide)))
  · have past := (pastStep_eight_iff s).mpr early
    simp only [deliver_pt, ptHandle, past, if_true, sendState_eq]
  · have past := mt (pastStep_eight_iff s).mp late
    simp only [deliver_pt, ptHandle, past, if_false, quiet, Bool.false_eq_true]
  · exact fun f => rfl
  · simp [moveReports]
  · simp [enteringReports]

/-! ### STATE frames (O27, O28) -/

/-- An accepted STATE frame goes to the PT, from the state the frame's end leaves. -/
theorem exec_stateReceived {s : State} {h : Header} (ha : Accepts s h) (payload : List Byte) :
    exec (.stateReceived h payload) s =
      .next (State.handOn { s.heard with pt := (hearState s.pt s.heard h payload).1 } 2
        (hearState s.pt s.heard h payload).2) := by
  have ended : lcHandle (.frame h (BitVec.ofNat 8 Kind.state.code) payload) s =
      (s.heard.lc, [.pt (.stateFrame h payload)]) :=
    (frameEnd_of_accepts ha _ _).trans (by rfl)
  have handed : s.run [frameOf .state h payload] = s.heard.handOn 1 [.pt (.stateFrame h payload)] := by
    rw [run_one ha.1, frameOf, deliver_lc, ended]
    rfl
  refine congrArg Host.Outcome.next (handed.trans ?_)
  rw [handOn_cons _ _ _ (by decide), List.append_nil]
  rfl

theorem moveClock_inner (p : Pt) (v : Nat) (c : ClockChange) : (moveClock p v c).2.all Report.inner = true := by
  simp only [moveClock]
  split <;> rfl

theorem hearClock_inner (p : Pt) (b : Bool) (v : Nat) : (hearClock p b v).2.all Report.inner = true := by
  unfold hearClock
  split
  · rfl
  split
  · split
    · exact moveClock_inner _ _ _
    · rfl
  split
  · exact moveClock_inner _ _ _
  · rfl

theorem takeState_inner (p : Pt) (s : State) (n : Nat) (f : PeerFields) :
    (takeState p s n f).2.all Report.inner = true := by
  have figures : ∀ q, (recompute q s).2.all Report.inner = true := fun q => all_inner_of_plain (recompute_plain q s)
  simp only [takeState, andThen_snd, List.all_append, hearClock_inner, figures, Bool.true_and]
  rfl

/-- Of a STATE frame taken the entry and the clock stay. -/
theorem takeState_view (p : Pt) (s : State) (n : Nat) (f : PeerFields) :
    (takeState p s n f).1.view = (hearClock (p.entered n f) f.clockValid f.clock).1.view := rfl

theorem hearClock_tableFull (p : Pt) (b : Bool) (v : Nat) : (hearClock p b v).1.tableFull = p.tableFull := by
  unfold hearClock
  (repeat' split) <;> rfl

/-- The clock value heard sets the clock. -/
theorem hearClock_sets {p : Pt} {v : Nat}
    (h : p.clockValid = false ∧ p.floor ≤ v ∨ p.clockValid = true ∧ p.clock + 2 ≤ v) :
    (hearClock p true v).1.clock = v ∧ (hearClock p true v).1.clockValid = true ∧
      (hearClock p true v).1.second = some 1000 := by
  rcases h with ⟨valid, ahead⟩ | ⟨valid, ahead⟩
  · simp [hearClock, valid, ahead, moveClock]
  · simp [hearClock, valid, ahead, moveClock]

/-- The clock value heard is passed over. -/
theorem hearClock_stays {p : Pt} {b : Bool} {v : Nat}
    (h : b = false ∨ (p.clockValid = false ∧ v < p.floor) ∨ (p.clockValid = true ∧ v < p.clock + 2)) :
    hearClock p b v = quiet p := by
  rcases h with rfl | ⟨valid, below⟩ | ⟨valid, below⟩
  · rfl
  · simp [hearClock, valid, Nat.not_le.mpr below]
  · simp [hearClock, valid, Nat.not_le.mpr below]

/-- A STATE frame taken: what it leaves of the PT, the channels and the inputs. -/
theorem exec_stateReceived_taken {s : State} {h : Header} {payload : List Byte} (ha : Accepts s h)
    (hf : ¬ StateFails h payload) (hn : s.pt.admits h.sender.toNat) :
    ∃ t, exec (.stateReceived h payload) s = .next t ∧
      t.pt.view = (hearClock (s.pt.entered h.sender.toNat (.ofPayload payload)) (fieldAt payload 27 1 != 0)
        (fieldAt payload 23 4)).1.view ∧ t.pcu = s.pcu ∧ t.fli.inputs = s.fli.inputs := by
  refine ⟨_, exec_stateReceived ha payload, ?_⟩
  rw [hearState_taken hf hn]
  exact handOn_inner _ 2 (takeState_inner s.pt s.heard _ _)

/-- Settles O27: the tests of R23 decide between three outcomes, and one taken enters the sender's fields. -/
theorem stateFramesEnterThePeerTable : Obligations.StateFramesEnterThePeerTable := by
  intro h payload s ha
  refine ⟨fun hf => ?_, fun hf unknown full => ?_, fun hf room => ?_⟩
  · rw [exec_stateReceived ha, hearState_fails hf]
    exact congrArg Host.Outcome.next (handOn_nil s.heard 2)
  · rw [exec_stateReceived ha, hearState_full hf unknown full]
    exact congrArg Host.Outcome.next (handOn_nil _ 2)
  · obtain ⟨t, ht, view, pcu, inputs⟩ := exec_stateReceived_taken ha hf room
    obtain ⟨entries, tableFull, -⟩ := Pt.view_eq_iff.mp view
    rw [hearClock_entries] at entries
    rw [hearClock_tableFull] at tableFull
    have find := Pt.find_eq_of_entries (p := t.pt) (q := s.pt.entered _ _) entries
    refine ⟨t, ht, ?_, fun m hm => ?_, ?_, tableFull, pcu, inputs⟩
    · rw [find]
      exact find_putEntry_same s.pt.entries ⟨h.sender.toNat, .ofPayload payload, ageOf _⟩
    · rw [find]
      exact find_putEntry_other _ _ hm
    · rw [entries, Pt.find_isSome]
      exact length_putEntry _ _

/-- Settles O28: what the clock field of a frame taken does to the clock. -/
theorem stateFramesSetTheClock : Obligations.StateFramesSetTheClock := by
  intro h payload s ha group length low high own ownGroup room
  have passes : ¬ StateFails h payload := by
    simp only [StateFails, not_or]
    exact ⟨group, not_not.mpr length, by omega, by omega, not_not.mpr own, not_not.mpr ownGroup⟩
  obtain ⟨t, ht, view, -⟩ := exec_stateReceived_taken ha passes room
  obtain ⟨-, -, clock, clockValid, second, -⟩ := Pt.view_eq_iff.mp view
  refine ⟨t, ht, ?_⟩
  rw [clock, clockValid, second]
  refine ⟨fun invalid valid above => ?_, fun known valid ahead => ?_, fun passed => ?_⟩
  · rw [bne_iff_ne.mpr valid]
    exact hearClock_sets (.inl ⟨invalid, above⟩)
  · rw [bne_iff_ne.mpr valid]
    exact hearClock_sets (.inr ⟨known, ahead⟩)
  · have stays := hearClock_stays (p := s.pt.entered h.sender.toNat (.ofPayload payload))
      (b := fieldAt payload 27 1 != 0) (passed.imp (fun e => by simpa using e) id)
    rw [stays]
    exact ⟨rfl, rfl, rfl⟩

/-! ### Silent peers (O29) -/

/-- The table without a station's entry. -/
def Pt.without (p : Pt) (n : Nat) : Pt :=
  { p with
    entries := p.entries.filter fun e => e.station != n
    tableFull := p.tableFull && decide (15 ≤ (p.entries.filter fun e => e.station != n).length) }

theorem loseEntry_none {p : Pt} (s : State) {n : Nat} (h : p.find n = none) : loseEntry p s n = quiet p := by
  simp [loseEntry, h]

theorem loseEntry_some {p : Pt} (s : State) {n : Nat} (h : (p.find n).isSome = true) : loseEntry p s n =
    (recompute (p.without n) s).andThen fun t => (t, [.du (.peerLost n), .cc (.peerLost n)]) := by
  simp only [loseEntry, Option.isNone_eq_false_iff.mpr h, Bool.false_eq_true, if_false]
  rfl

theorem find_without_same (p : Pt) (n : Nat) : (p.without n).find n = none := by
  simp [Pt.without, Pt.find]

theorem find_without_other (p : Pt) {n m : Nat} (h : m ≠ n) : (p.without n).find m = p.find m := by
  simp only [Pt.without, Pt.find, List.find?_filter]
  congr 1
  funext e
  by_cases own : e.station = m <;> simp [own, h]

/-- With one entry less than 15 the table has room again. -/
theorem tableFull_without {p : Pt} {n : Nat} (h : (p.find n).isSome = true) (few : p.entries.length ≤ 15) :
    (p.without n).tableFull = false := by
  rw [Pt.find_isSome, List.any_eq_true] at h
  obtain ⟨e, he, own⟩ := h
  have fewer : (p.entries.filter fun e => e.station != n).length < p.entries.length :=
    List.length_filter_lt_length_iff_exists.mpr ⟨e, he, by simpa using own⟩
  simp only [Pt.without, Bool.and_eq_false_iff, decide_eq_false_iff_not]
  omega

theorem Pt.kept_eq_iff {p q : Pt} : p.kept = q.kept ↔ p.entries = q.entries ∧ p.tableFull = q.tableFull ∧
    p.clock = q.clock ∧ p.clockValid = q.clockValid ∧ p.floor = q.floor ∧ p.second = q.second ∧
    p.runSeconds = q.runSeconds := by
  simp [Pt.kept]

/-- Settles O29: the entry is filtered out, and what the PT reports of it are control reports. -/
theorem silentPeersAreRemoved : Obligations.SilentPeersAreRemoved := by
  intro n s up
  refine ⟨fun unknown => congrArg Host.Outcome.next (run_pt_quiet up (loseEntry_none s unknown)), fun known => ?_⟩
  have lost := run_pt (m := .age n) up (loseEntry_some s known)
  have told : ((recompute (s.pt.without n) s).2 ++ [Report.du (.peerLost n), .cc (.peerLost n)]).all Report.control = true :=
    all_control_of_plain (by simp)
  obtain ⟨-, fu, bu, store⟩ := settle_control_books (settleLimit - 1) _
    { s with pt := (recompute (s.pt.without n) s).1 } told
  have kept := settle_control_pt (settleLimit - 1) _ { s with pt := (recompute (s.pt.without n) s).1 } told
  obtain ⟨entries, tableFull, clock, clockValid, -⟩ := Pt.kept_eq_iff.mp kept
  have find := Pt.find_eq_of_entries entries
  refine ⟨_, congrArg Host.Outcome.next lost, (find n).trans (find_without_same s.pt n), fun m hm => ?_, fun few => ?_,
    clock, clockValid, fu, bu, store⟩
  · exact (find m).trans (find_without_other s.pt hm)
  · exact tableFull.trans (tableFull_without known few)

/-! ### Seconds and TIME SET (O30, O31) -/

/-- A clock that moves, and what inner reports leave of it. -/
theorem handOn_moveClock (s : State) (k v : Nat) (c : ClockChange) {rs : List Report}
    (hr : rs.all Report.inner = true) :
    let t := State.handOn { s with pt := (moveClock s.pt v c).1 } k ((moveClock s.pt v c).2 ++ rs)
    t.pt.clock = v ∧ t.pt.clockValid = true ∧ t.pt.second = some 1000 ∧ t.pt.entries = s.pt.entries ∧
      t.fli.inputs = s.fli.inputs ∧ t.pcu = s.pcu := by
  obtain ⟨view, pcu, inputs⟩ := handOn_inner { s with pt := (moveClock s.pt v c).1 } k
    (inner_append (moveClock_inner s.pt v c) hr)
  obtain ⟨entries, -, clock, clockValid, second, -⟩ := Pt.view_eq_iff.mp view
  exact ⟨clock, clockValid, second, entries, inputs, pcu⟩

/-- Settles O30: the second timer's expiry by the three cases of the clock, and a second of run hours. -/
theorem secondsStepTheClock : Obligations.SecondsStepTheClock := by
  refine ⟨fun s up => ⟨fun still => ?_, fun valid running below => ?_, fun valid running full => ?_⟩, fun s hp => ?_⟩
  · refine congrArg Host.Outcome.next (run_pt_quiet (p := s.pt) up ?_)
    rcases still with h | h <;> simp [ptHandle, clockSecond, h]
  · have steps : ptHandle .second s = moveClock s.pt (s.pt.clock + 1) (.step (s.pt.clock + 1)) := by
      simp [ptHandle, clockSecond, valid, running, max32, below]
    obtain ⟨clock, clockValid, second, entries, inputs, pcu⟩ :=
      handOn_moveClock s 1 (s.pt.clock + 1) (.step (s.pt.clock + 1)) (rs := []) rfl
    rw [List.append_nil] at *
    exact ⟨_, congrArg Host.Outcome.next (run_pt up steps), clock, clockValid, second, entries, pcu, inputs⟩
  · refine congrArg Host.Outcome.next (run_pt_quiet up ?_)
    simp [ptHandle, clockSecond, valid, running, max32, Nat.not_lt.mpr full]
  · refine congrArg Host.Outcome.next (run_pt_quiet (isRunning_isUp hp) ?_)
    simp only [ptHandle, isRunning_of_running hp, Bool.true_and]
    split <;> rfl

/-- TIME SET: what the PT does with it is handed on from the state the frame's end leaves. -/
theorem exec_timeSet {h : Header} (tag : Byte) {params : List Byte} {s : State} (hc : Commands s h)
    (hp : params.length = 4) (hl : s.fli.inputs.lock = false) {p : Pt} {rs : List Report}
    (ht : timeSetClock s.pt (askOf h .timeSet tag) (beNat params) = (p, rs)) :
    exec (.timeSet h tag params) s = .next (State.handOn { s.heard with pt := p } 2 rs) := by
  have handed : s.run [toolOf .timeSet h tag params] = _ := run_toolOf tag hc (by decide) hp (by simp [hl])
  have taken : deliver (.pt (.timeSet (askOf h .timeSet tag) (beNat params))) s.heard =
      ({ s.heard with pt := p }, rs) := by
    rw [deliver_pt]
    simp only [ptHandle, show s.heard.pt = s.pt from rfl, ht]
  rw [SubKind.report, handOn_cons _ _ _ (by omega), taken, List.append_nil] at handed
  exact congrArg _ handed

/-- TIME SET as R33 judges it: below, at, or above what the clock and the floor allow. -/
theorem timeSetClock_range {p : Pt} (ask : Ask) {v : Nat}
    (h : p.clockValid = true ∧ v < p.clock ∨ p.clockValid = false ∧ v < p.floor) :
    timeSetClock p ask v = (p, [.lc (.answer ask .range [])]) := by
  rcases h with ⟨valid, below⟩ | ⟨valid, below⟩ <;> simp [timeSetClock, valid, below]

theorem timeSetClock_present {p : Pt} (ask : Ask) {v : Nat} (valid : p.clockValid = true) (h : v = p.clock) :
    timeSetClock p ask v = ({ p with second := some 1000 }, [.lc (.answer ask .done [])]) := by
  simp [timeSetClock, valid, h]

theorem timeSetClock_moves {p : Pt} (ask : Ask) {v : Nat}
    (h : p.clockValid = true ∧ p.clock < v ∨ p.clockValid = false ∧ p.floor ≤ v) :
    ∃ c, timeSetClock p ask v = ((moveClock p v c).1, (moveClock p v c).2 ++ [.lc (.answer ask .done [])]) := by
  rcases h with ⟨valid, above⟩ | ⟨valid, above⟩
  · have ne : v ≠ p.clock := by omega
    exact ⟨.jump p.clock v, by simp [timeSetClock, valid, Nat.not_lt.mpr above.le, ne, Act.andThen]⟩
  · exact ⟨.becomingValid v, by simp [timeSetClock, valid, Nat.not_lt.mpr above, Act.andThen]⟩

/-- Settles O31. -/
theorem timeSetIsJudged : Obligations.TimeSetIsJudged := by
  intro h tag params s hc hp hl
  refine ⟨fun low => ?_, fun valid present => ?_, fun high => ?_⟩
  · rw [exec_timeSet tag hc hp hl (timeSetClock_range _ low), handOn_answer _ _ _ _ (by decide)]
    rfl
  · rw [exec_timeSet tag hc hp hl (timeSetClock_present _ valid present), handOn_answer _ _ _ _ (by decide)]
  · obtain ⟨c, moves⟩ := timeSetClock_moves (askOf h .timeSet tag) high
    obtain ⟨clock, clockValid, second, entries, inputs, pcu⟩ :=
      handOn_moveClock s.heard 2 (beNat params) c (rs := [.lc (.answer (askOf h .timeSet tag) .done [])]) rfl
    exact ⟨_, exec_timeSet tag hc hp hl moves, clock, clockValid, second, entries, inputs, pcu⟩

end Sys2Proof.Machine
end

section
/-! SUPPORT. The STATE payload read back (O26): byte order, codes, flags (Tables 2-1, 9-3, 9-6; R167). -/

namespace Sys2Proof.Machine

/-! ### Byte order -/

theorem foldl_beBytes (w n acc : Nat) :
    (beBytes w n).foldl (fun acc b => acc * 256 + b.toNat) acc = acc * 256 ^ w + n % 256 ^ w := by
  induction w generalizing acc with
  | zero => simp [beBytes, Nat.mod_one]
  | succ w ih =>
      have top : n % 256 ^ (w + 1) = n % 256 ^ w + 256 ^ w * (n / 256 ^ w % 256) := by
        rw [Nat.pow_succ, Nat.mod_mul]
      have byte : n / 256 ^ w % 2 ^ 8 = n / 256 ^ w % 256 := rfl
      rw [beBytes, List.foldl_cons, ih, BitVec.toNat_ofNat, byte, top]
      ring

/-- The bytes of a number stand for what of it they can hold. -/
theorem beNat_beBytes (w n : Nat) : beNat (beBytes w n) = n % 256 ^ w := by
  rw [beNat, foldl_beBytes, Nat.zero_mul, Nat.zero_add]

theorem beNat_beBytes_of_lt {w n : Nat} (h : n < 256 ^ w) : beNat (beBytes w n) = n := by
  rw [beNat_beBytes, Nat.mod_eq_of_lt h]

theorem beNat_byte {n : Nat} (h : n < 256) : beNat [BitVec.ofNat 8 n] = n := by
  simpa [beBytes] using beNat_beBytes_of_lt (w := 1) (n := n) (by simpa using h)

theorem beNat_flagByte (b : Bool) : (beNat [flagByte b] != 0) = b := by cases b <;> decide

/-! ### Codes -/

theorem SetState.ofCode_code (st : SetState) : SetState.ofCode st.code = st := by cases st <;> rfl

theorem SetState.code_lt (st : SetState) : st.code < 256 := by cases st <;> decide

theorem Handover.ofCode_code (st : Handover) : Handover.ofCode? st.code = some st := by cases st <;> rfl

theorem Handover.code_lt (st : Handover) : st.code < 256 := by cases st <;> decide

theorem Threshold.ofCode_code (t : Threshold) : Threshold.ofCode t.code = t := by cases t <;> rfl

theorem Threshold.code_lt (t : Threshold) : t.code < 256 := by cases t <;> decide

theorem shedClassOf_classCode {c : Option FeederClass} (h : c ≠ some .protectedClass) :
    shedClassOf (classCode c) = c := by
  rcases c with _ | c
  · rfl
  · cases c with
    | protectedClass => exact absurd rfl h
    | _ => rfl

theorem classCode_lt (c : Option FeederClass) : classCode c < 256 := by
  rcases c with _ | c
  · decide
  · cases c <;> decide

theorem clampTo_of_mem {lo hi n : Nat} (h1 : lo ≤ n) (h2 : n ≤ hi) : clampTo lo hi n = n := by
  unfold clampTo
  (repeat' split) <;> omega

theorem clampHeartbeat_of_mem {n : Nat} (h1 : 500 ≤ n) (h2 : n ≤ 2000) (h : n % 100 = 0) : clampHeartbeat n = n := by
  rw [clampHeartbeat, clampTo_of_mem h1 h2]
  omega

/-! ### The fields of a payload -/

/-- The fitted flags in one byte (Table 9-6, offset 2). -/
def fittedFlags (g : Cfg) : Nat :=
  (if g.setFitted then 1 else 0) + (if g.tankFitted then 2 else 0) + (if g.closedCap then 4 else 0)

theorem testBit_fittedFlags (g : Cfg) : (fittedFlags g).testBit 0 = g.setFitted ∧
    (fittedFlags g).testBit 1 = g.tankFitted ∧ (fittedFlags g).testBit 2 = g.closedCap := by
  unfold fittedFlags
  cases g.setFitted <;> cases g.tankFitted <;> cases g.closedCap <;> decide

theorem fittedFlags_lt (g : Cfg) : fittedFlags g < 256 := by
  unfold fittedFlags
  (repeat' split) <;> decide

/-- A value of the set, 0 without one. -/
def fitSet (g : Cfg) (n : Nat) : Nat := if g.setFitted then n else 0

theorem fitSet_fitted {g : Cfg} (h : g.setFitted = true) (n : Nat) : fitSet g n = n := if_pos h

theorem fitSet_bare {g : Cfg} (h : g.setFitted = false) (n : Nat) : fitSet g n = 0 := if_neg (by simp [h])

theorem fitSet_le {g : Cfg} {n m : Nat} (h : n ≤ m) : fitSet g n ≤ m := by
  unfold fitSet
  split <;> omega

section
variable (s : State)

theorem statePayload_length : (statePayload s).length = 44 := by simp [statePayload, beBytes]

theorem read_flags : fieldAt (statePayload s) 2 1 = fittedFlags s.cfg :=
  calc
    _ = beNat [BitVec.ofNat 8 (fittedFlags s.cfg)] := by simp [fieldAt, statePayload, beBytes, fittedFlags]
    _ = _ := beNat_byte (fittedFlags_lt s.cfg)

theorem read_heartbeat (h : s.cfg.heartbeat ≤ 2000) : fieldAt (statePayload s) 3 2 = s.cfg.heartbeat :=
  calc
    _ = beNat (beBytes 2 s.cfg.heartbeat) := by simp [fieldAt, statePayload, beBytes]
    _ = _ := beNat_beBytes_of_lt (by omega)

theorem read_setState : fieldAt (statePayload s) 5 1 = fitSet s.cfg s.du.state.code :=
  calc
    _ = beNat [BitVec.ofNat 8 (fitSet s.cfg s.du.state.code)] := by simp [fieldAt, statePayload, beBytes, fitSet]
    _ = _ := beNat_byte (Nat.lt_succ_of_le (fitSet_le (Nat.le_of_lt_succ s.du.state.code_lt)))

theorem read_onBus : (fieldAt (statePayload s) 6 1 != 0) = (s.cfg.setFitted && s.du.breaker) :=
  calc
    _ = (beNat [flagByte (s.cfg.setFitted && s.du.breaker)] != 0) := by simp [fieldAt, statePayload, beBytes]
    _ = _ := beNat_flagByte _

/-- A 16-bit value of the set. -/
theorem beNat_fitSet {g : Cfg} {n : Nat} (h : n ≤ 65535) : beNat (beBytes 2 (fitSet g n)) = fitSet g n :=
  beNat_beBytes_of_lt (Nat.lt_succ_of_le (fitSet_le h))

theorem read_rating (h : s.cfg.rating ≤ 2000) : fieldAt (statePayload s) 7 2 = fitSet s.cfg s.cfg.rating :=
  calc
    _ = beNat (beBytes 2 (fitSet s.cfg s.cfg.rating)) := by simp [fieldAt, statePayload, beBytes, fitSet]
    _ = _ := beNat_fitSet (by omega)

theorem read_output (h : s.pcu.se.figure ≤ 65535) : fieldAt (statePayload s) 9 2 = fitSet s.cfg s.pcu.se.figure :=
  calc
    _ = beNat (beBytes 2 (fitSet s.cfg s.pcu.se.figure)) := by simp [fieldAt, statePayload, beBytes, fitSet, State.outputKw]
    _ = _ := beNat_fitSet h

theorem read_share (h : s.du.share ≤ 1250) : fieldAt (statePayload s) 11 2 = fitSet s.cfg s.du.share :=
  calc
    _ = beNat (beBytes 2 (fitSet s.cfg s.du.share)) := by simp [fieldAt, statePayload, beBytes, fitSet]
    _ = _ := beNat_fitSet (by omega)

theorem read_hours (h : s.fu.hours ≤ 9999) : fieldAt (statePayload s) 13 2 = if s.cfg.tankFitted then s.fu.hours else 9999 :=
  calc
    _ = beNat (beBytes 2 (if s.cfg.tankFitted then s.fu.hours else 9999)) := by simp [fieldAt, statePayload, beBytes]
    _ = _ := beNat_beBytes_of_lt (by split <;> omega)

theorem read_threshold : fieldAt (statePayload s) 15 1 = if s.cfg.tankFitted then s.fu.threshold.code else 0 :=
  calc
    _ = beNat [BitVec.ofNat 8 (if s.cfg.tankFitted then s.fu.threshold.code else 0)] := by simp [fieldAt, statePayload, beBytes]
    _ = _ := beNat_byte (by split; exacts [s.fu.threshold.code_lt, by decide])

theorem read_runHours : fieldAt (statePayload s) 16 2 = fitSet s.cfg (min 65535 (s.pt.runSeconds / 3600)) :=
  calc
    _ = beNat (beBytes 2 (fitSet s.cfg (min 65535 (s.pt.runSeconds / 3600)))) := by simp [fieldAt, statePayload, beBytes, fitSet, runHours, clampTo_zero]
    _ = _ := beNat_fitSet (Nat.min_le_left _ _)

theorem read_show : (fieldAt (statePayload s) 18 1 != 0) = s.fli.inputs.showSwitch :=
  calc
    _ = (beNat [flagByte s.fli.inputs.showSwitch] != 0) := by simp [fieldAt, statePayload, beBytes]
    _ = _ := beNat_flagByte _

theorem read_handover : fieldAt (statePayload s) 19 1 = s.cc.state.code :=
  calc
    _ = beNat [BitVec.ofNat 8 s.cc.state.code] := by simp [fieldAt, statePayload, beBytes]
    _ = _ := beNat_byte s.cc.state.code_lt

theorem read_partner (h : s.cc.partner ≤ 27) : fieldAt (statePayload s) 20 1 = s.cc.partner :=
  calc
    _ = beNat [BitVec.ofNat 8 s.cc.partner] := by simp [fieldAt, statePayload, beBytes]
    _ = _ := beNat_byte (by omega)

theorem read_shedClass : fieldAt (statePayload s) 21 1 = classCode s.sc.summary.cls :=
  calc
    _ = beNat [BitVec.ofNat 8 (classCode s.sc.summary.cls)] := by simp [fieldAt, statePayload, beBytes]
    _ = _ := beNat_byte (classCode_lt _)

theorem read_shedCount (h : s.sc.summary.count ≤ 4) : fieldAt (statePayload s) 22 1 = s.sc.summary.count :=
  calc
    _ = beNat [BitVec.ofNat 8 s.sc.summary.count] := by simp [fieldAt, statePayload, beBytes]
    _ = _ := beNat_byte (by omega)

theorem read_clock (h : s.pt.clock < 4294967296) : fieldAt (statePayload s) 23 4 = s.pt.clock :=
  calc
    _ = beNat (beBytes 4 s.pt.clock) := by simp [fieldAt, statePayload, beBytes]
    _ = _ := beNat_beBytes_of_lt (by omega)

theorem read_clockValid : (fieldAt (statePayload s) 27 1 != 0) = s.pt.clockValid :=
  calc
    _ = (beNat [flagByte s.pt.clockValid] != 0) := by simp [fieldAt, statePayload, beBytes]
    _ = _ := beNat_flagByte _

theorem read_alerts : BitVec.ofNat 4 (fieldAt (statePayload s) 28 1) = s.alertFlags := by
  have low : ∀ a : BitVec 4, BitVec.ofNat 4 (beNat [a.setWidth 8]) = a := by decide
  calc
    _ = BitVec.ofNat 4 (beNat [s.alertFlags.setWidth 8]) := by simp [fieldAt, statePayload, beBytes]
    _ = _ := low s.alertFlags

end

/-! ### The fields of an entry -/

section
variable (p : List Byte)

theorem ofPayload_heartbeat : (PeerFields.ofPayload p).heartbeat = clampHeartbeat (fieldAt p 3 2) := rfl
theorem ofPayload_hours : (PeerFields.ofPayload p).hours = clampTo 0 9999 (fieldAt p 13 2) := rfl
theorem ofPayload_threshold : (PeerFields.ofPayload p).threshold = Threshold.ofCode (fieldAt p 15 1) := rfl
theorem ofPayload_runHours : (PeerFields.ofPayload p).runHours = fieldAt p 16 2 := rfl
theorem ofPayload_showInput : (PeerFields.ofPayload p).showInput = (fieldAt p 18 1 != 0) := rfl
theorem ofPayload_shedClass : (PeerFields.ofPayload p).shedClass = shedClassOf (fieldAt p 21 1) := rfl
theorem ofPayload_shedCount : (PeerFields.ofPayload p).shedCount = clampTo 0 4 (fieldAt p 22 1) := rfl
theorem ofPayload_clock : (PeerFields.ofPayload p).clock = fieldAt p 23 4 := rfl
theorem ofPayload_clockValid : (PeerFields.ofPayload p).clockValid = (fieldAt p 27 1 != 0) := rfl
theorem ofPayload_alerts : (PeerFields.ofPayload p).alerts = BitVec.ofNat 4 (fieldAt p 28 1) := rfl
end

/-- What the entry of a station with a set holds of it. -/
theorem ofPayload_fitted {p : List Byte} (h : (fieldAt p 2 1).testBit 0 = true) :
    (PeerFields.ofPayload p).setState = SetState.ofCode (fieldAt p 5 1) ∧
    (PeerFields.ofPayload p).onBus = (fieldAt p 6 1 != 0) ∧
    (PeerFields.ofPayload p).rating = clampTo 10 2000 (fieldAt p 7 2) ∧
    (PeerFields.ofPayload p).output = fieldAt p 9 2 ∧
    (PeerFields.ofPayload p).share = clampTo 0 1250 (fieldAt p 11 2) := by
  simp [PeerFields.ofPayload, h]

theorem ofPayload_bare {p : List Byte} (h : (fieldAt p 2 1).testBit 0 = false) :
    (PeerFields.ofPayload p).setState = .stopped ∧ (PeerFields.ofPayload p).onBus = false ∧
    (PeerFields.ofPayload p).rating = 0 ∧ (PeerFields.ofPayload p).output = 0 ∧
    (PeerFields.ofPayload p).share = 0 := by
  simp [PeerFields.ofPayload, h]

theorem ofPayload_handover {p : List Byte} {st : Handover} (h : Handover.ofCode? (fieldAt p 19 1) = some st)
    (hp : fieldAt p 20 1 ≤ 27) :
    (PeerFields.ofPayload p).handover = st ∧ (PeerFields.ofPayload p).partner = fieldAt p 20 1 := by
  simp [PeerFields.ofPayload, h, Nat.not_lt.mpr hp]

/-- Settles O26: each field of the payload is read back by the lemma of its own coding. -/
theorem stateFramesCarryTheOwnersValues : Obligations.StateFramesCarryTheOwnersValues := by
  intro s hbLow hbHigh hbTenths ratingLow ratingHigh output share hours partner cls count clock p f
  obtain ⟨hp, hf⟩ : p = statePayload s ∧ f = PeerFields.ofPayload p := ⟨rfl, rfl⟩
  clear_value f p
  subst hf hp
  obtain ⟨setBit, tankBit, capBit⟩ := testBit_fittedFlags s.cfg
  rw [← read_flags] at setBit tankBit capBit
  have partner_read := read_partner s partner
  obtain ⟨handover, partner'⟩ := ofPayload_handover (p := statePayload s)
    ((congrArg _ (read_handover s)).trans s.cc.state.ofCode_code) (partner_read ▸ partner)
  have runHours' := (ofPayload_runHours _).trans (read_runHours s)
  refine ⟨statePayload_length s, setBit, tankBit, capBit, ?heartbeat, (ofPayload_showInput _).trans (read_show s),
    handover, partner'.trans partner_read, ?cls, ?count, (ofPayload_clock _).trans (read_clock s clock),
    (ofPayload_clockValid _).trans (read_clockValid s), (ofPayload_alerts _).trans (read_alerts s),
    fun fitted => ?fitted, fun bare => ?bare, fun tank => ⟨?hours, ?threshold⟩, fun tankless => ⟨?noHours, ?normal⟩⟩
  case heartbeat => rw [ofPayload_heartbeat, read_heartbeat s hbHigh, clampHeartbeat_of_mem hbLow hbHigh hbTenths]
  case cls => rw [ofPayload_shedClass, read_shedClass, shedClassOf_classCode cls]
  case count => rw [ofPayload_shedCount, read_shedCount s count, clampTo_of_mem (Nat.zero_le _) count]
  case fitted =>
    obtain ⟨setState, onBus, rating, output', share'⟩ := ofPayload_fitted (setBit.trans fitted)
    rw [setState, onBus, rating, output', share', runHours', read_setState, read_onBus, read_rating s ratingHigh,
      read_output s output, read_share s share]
    simp only [fitSet_fitted fitted, SetState.ofCode_code, fitted, Bool.true_and,
      clampTo_of_mem ratingLow ratingHigh, clampTo_of_mem (Nat.zero_le _) share, and_self]
  case bare =>
    obtain ⟨setState, onBus, rating, output', share'⟩ := ofPayload_bare (setBit.trans bare)
    exact ⟨setState, onBus, rating, output', share', runHours'.trans (fitSet_bare bare _)⟩
  case hours => rw [ofPayload_hours, read_hours s hours, if_pos tank, clampTo_of_mem (Nat.zero_le _) hours]
  case threshold => rw [ofPayload_threshold, read_threshold, if_pos tank, Threshold.ofCode_code]
  case noHours =>
    rw [ofPayload_hours, read_hours s hours, if_neg (Bool.eq_false_iff.mp tankless),
      clampTo_of_mem (Nat.zero_le _) (Nat.le_refl _)]
  case normal =>
    rw [ofPayload_threshold, read_threshold, if_neg (Bool.eq_false_iff.mp tankless)]
    rfl

end Sys2Proof.Machine
end

section
/-! SUPPORT. The group figures, the share setpoint and the ramp (O36). -/

namespace Sys2Proof.Machine

/-! ### The figures of Table 2-4 -/

/-- A total over the own set and the peers' sets that a test admits. -/
theorem sum_sets (p : SetView → Bool) (g : SetView → Nat) (own : SetView) (l : List PeerEntry) :
    (((own :: l.map PeerEntry.view).filter p).map g).sum =
      (if p own then g own else 0) + ((l.filter fun e => p e.view).map fun e => g e.view).sum := by
  by_cases h : p own <;> simp [h, List.filter_map, Function.comp_def]

theorem length_sets (p : SetView → Bool) (own : SetView) (l : List PeerEntry) :
    ((own :: l.map PeerEntry.view).filter p).length =
      (if p own then 1 else 0) + (l.filter fun e => p e.view).length := by
  by_cases h : p own <;> simp [h, List.filter_map, Function.comp_def, Nat.add_comm]

/-- The carrying sets among the peers: on bus and not in RAMPDOWN. -/
theorem filter_carrying (l : List PeerEntry) :
    (l.filter fun e => !e.view.releasing && e.view.onBus) =
      (l.filter fun e => e.fields.onBus).filter fun e => e.fields.setState != .rampdown := by
  rw [List.filter_filter]
  refine List.filter_congr fun e _ => ?_
  cases h : e.fields.onBus <;> simp [PeerEntry.view, h, bne]

theorem filter_releasing (l : List PeerEntry) :
    (l.filter fun e => e.view.releasing && e.view.onBus) =
      (l.filter fun e => e.fields.onBus).filter fun e => e.fields.setState == .rampdown := by
  rw [List.filter_filter]
  refine List.filter_congr fun e _ => ?_
  cases h : e.fields.onBus <;> simp [PeerEntry.view, h]

theorem carrying_ownView (s : State) :
    (!(ownView s).releasing && (ownView s).onBus) = (s.du.breaker && s.du.state != .rampdown) := by
  cases h : s.du.breaker <;> simp [ownView, h, bne]

theorem releasing_ownView (s : State) :
    ((ownView s).releasing && (ownView s).onBus) = (s.du.breaker && s.du.state == .rampdown) := by
  cases h : s.du.breaker <;> simp [ownView, h]

section
variable (s : State) (l : List PeerEntry)

theorem figuresOf_capacity : (figuresOf s l).capacity =
    (if s.du.breaker && s.du.state != .rampdown then s.cfg.rating else 0) +
      (((l.filter fun e => e.fields.onBus).filter fun e => e.fields.setState != .rampdown).map
        (·.fields.rating)).sum := by
  rw [← filter_carrying, ← carrying_ownView]
  simp only [figuresOf, List.filter_filter]
  exact sum_sets _ _ _ _

theorem figuresOf_load : (figuresOf s l).load =
    (if s.du.breaker then s.pcu.se.figure else 0) +
      ((l.filter fun e => e.fields.onBus).map (·.fields.output)).sum := by
  exact sum_sets _ _ _ _

theorem figuresOf_releasing : (figuresOf s l).releasing =
    (if s.du.breaker && s.du.state == .rampdown then s.pcu.se.figure else 0) +
      (((l.filter fun e => e.fields.onBus).filter fun e => e.fields.setState == .rampdown).map
        (·.fields.output)).sum := by
  rw [← filter_releasing, ← releasing_ownView]
  simp only [figuresOf, List.filter_filter]
  exact sum_sets _ _ _ _

theorem figuresOf_carrying : (figuresOf s l).carrying =
    (if s.du.breaker && s.du.state != .rampdown then 1 else 0) +
      ((l.filter fun e => e.fields.onBus).filter fun e => e.fields.setState != .rampdown).length := by
  rw [← filter_carrying, ← carrying_ownView]
  simp only [figuresOf, List.filter_filter]
  exact length_sets _ _ _

theorem figuresOf_showActive : (figuresOf s l).showActive = true ↔
    s.fli.inputs.showSwitch = true ∨ ∃ e ∈ l, e.fields.showInput = true := by
  simp [figuresOf]

theorem figuresOf_handoverInGroup : (figuresOf s l).handoverInGroup = true ↔
    s.cc.state ≠ .idle ∨ ∃ e ∈ l, e.fields.handover ≠ .idle := by
  simp [figuresOf]
end

/-! ### The lowest class shed -/

/-- Of the classes seen: none, when all are none; else one of them of the lowest priority. -/
def LowestClass (o : ClassOrder) (seen : List (Option FeederClass)) : Option FeederClass → Prop
  | none => ∀ c ∈ seen, c = none
  | some k => some k ∈ seen ∧ ∀ q, some q ∈ seen → priority o k ≤ priority o q

theorem lowestClass_lowerClass {o : ClassOrder} {seen : List (Option FeederClass)} {best : Option FeederClass}
    (h : LowestClass o seen best) (c : Option FeederClass) : LowestClass o (seen ++ [c]) (lowerClass o best c) := by
  cases best with
  | none =>
      cases c with
      | none => simpa [LowestClass, lowerClass, or_imp, forall_and] using h
      | some y =>
          refine ⟨by simp, fun q hq => ?_⟩
          rcases List.mem_append.mp hq with hq | hq
          · exact absurd (h _ hq) nofun
          · simp_all
  | some x =>
      obtain ⟨hx, low⟩ := h
      cases c with
      | none =>
          refine ⟨by simp [hx], fun q hq => low q ?_⟩
          simpa using hq
      | some y =>
          simp only [lowerClass]
          split
          next lower =>
            refine ⟨by simp, fun q hq => ?_⟩
            rcases List.mem_append.mp hq with hq | hq
            · exact lower.le.trans (low q hq)
            · simp_all
          next notLower =>
            refine ⟨by simp [hx], fun q hq => ?_⟩
            rcases List.mem_append.mp hq with hq | hq
            · exact low q hq
            · rw [List.mem_singleton, Option.some.injEq] at hq
              subst hq
              omega

theorem lowestClass_foldl {o : ClassOrder} (l seen : List (Option FeederClass)) {best : Option FeederClass}
    (h : LowestClass o seen best) : LowestClass o (seen ++ l) (l.foldl (lowerClass o) best) := by
  induction l generalizing seen best with
  | nil => simpa using h
  | cons c l ih => simpa using ih (seen ++ [c]) (lowestClass_lowerClass h c)

theorem lowestShed_lowest (s : State) (l : List PeerEntry) :
    LowestClass s.cfg.order (l.map fun e => e.fields.shedClass) (figuresOf s l).lowestShed :=
  lowestClass_foldl (l.map fun e => e.fields.shedClass) [] (best := none) nofun

theorem figuresOf_lowestShed_none (s : State) (l : List PeerEntry) :
    (figuresOf s l).lowestShed = none ↔ ∀ e ∈ l, e.fields.shedClass = none := by
  have lowest := lowestShed_lowest s l
  cases h : (figuresOf s l).lowestShed with
  | none =>
      rw [h] at lowest
      exact ⟨fun _ e he => lowest _ (List.mem_map_of_mem he), fun _ => rfl⟩
  | some k =>
      rw [h] at lowest
      obtain ⟨e, he, hk⟩ := List.mem_map.mp lowest.1
      exact ⟨nofun, fun none => absurd (hk.symm.trans (none e he)) nofun⟩

theorem figuresOf_lowestShed_some {s : State} {l : List PeerEntry} {k : FeederClass}
    (h : (figuresOf s l).lowestShed = some k) : (∃ e ∈ l, e.fields.shedClass = some k) ∧
      ∀ e ∈ l, ∀ q, e.fields.shedClass = some q → priority s.cfg.order k ≤ priority s.cfg.order q := by
  have lowest := lowestShed_lowest s l
  rw [h] at lowest
  obtain ⟨held, low⟩ := lowest
  exact ⟨List.mem_map.mp held, fun e he q hq => low q (List.mem_map.mpr ⟨e, he, hq⟩)⟩

/-! ### What of the figures is handed on -/

section
variable {a b : Figures}

theorem figureChanges_self (a : Figures) : figureChanges a a = [] := by simp [figureChanges]

theorem figureChanges_power (h : a.capacity ≠ b.capacity ∨ a.load ≠ b.load ∨ a.releasing ≠ b.releasing) :
    .du (.figures true) ∈ figureChanges a b := by
  have power : (a.capacity != b.capacity || a.load != b.load || a.releasing != b.releasing) = true := by
    simpa [or_assoc] using h
  simp [figureChanges, power]

theorem figureChanges_set
    (hp : ¬ (a.capacity ≠ b.capacity ∨ a.load ≠ b.load ∨ a.releasing ≠ b.releasing))
    (h : a.carrying ≠ b.carrying ∨ a.peersOnBus ≠ b.peersOnBus ∨ a.handoverInGroup ≠ b.handoverInGroup) :
    .du (.figures false) ∈ figureChanges a b := by
  have power : (a.capacity != b.capacity || a.load != b.load || a.releasing != b.releasing) = false := by
    simpa [and_assoc] using hp
  have others : (a.carrying != b.carrying || a.peersOnBus != b.peersOnBus ||
      a.handoverInGroup != b.handoverInGroup) = true := by
    simpa [or_assoc] using h
  simp only [figureChanges, power, Bool.false_or, others, if_true]
  simp

theorem figureChanges_show (h : a.showActive ≠ b.showActive) :
    .cc (.showActive b.showActive) ∈ figureChanges a b := by
  simp [figureChanges, bne_iff_ne.mpr h]

theorem figureChanges_sc (h : a.capacity ≠ b.capacity ∨ a.load ≠ b.load ∨ a.lowestShed ≠ b.lowestShed) :
    .sc (.figures (decide (a.capacity ≠ b.capacity ∨ a.load ≠ b.load)) (decide (a.lowestShed ≠ b.lowestShed))) ∈
      figureChanges a b := by
  have power : (a.capacity != b.capacity || a.load != b.load) =
      decide (a.capacity ≠ b.capacity ∨ a.load ≠ b.load) := by
    rw [Bool.eq_iff_iff]
    simp
  have cls : (a.lowestShed != b.lowestShed) = decide (a.lowestShed ≠ b.lowestShed) := by
    rw [Bool.eq_iff_iff]
    simp
  have told : (decide (a.capacity ≠ b.capacity ∨ a.load ≠ b.load) || decide (a.lowestShed ≠ b.lowestShed)) = true := by
    simpa [or_assoc] using h
  simp only [figureChanges, power, cls, told, if_true]
  simp
end

/-! ### S and the ramp -/

/-- A report to the DU that hands nothing over. -/
theorem run_du_quiet {s : State} (h : s.isUp = true) {m : DuMsg} {d : Du} (hm : duHandle m s = quiet d) :
    s.run [.du m] = { s with du := d } := by
  rw [run_one h, deliver_du, hm]
  exact handOn_nil _ _

theorem run_du {s : State} (h : s.isUp = true) {m : DuMsg} {d : Du} {rs : List Report}
    (hm : duHandle m s = (d, rs)) : s.run [.du m] = State.handOn { s with du := d } 1 rs := by
  rw [run_one h, deliver_du, hm]

/-- RAMPDOWN before TRIP. -/
def Du.Ramping (d : Du) : Prop := d.state = .rampdown ∧ d.tripIssued = false

/-- S is computed: ONBUS, once the first SE window of the start has expired, at a capacity above 0. -/
def Du.Shares (d : Du) (f : Figures) : Prop := d.state = .onbus ∧ d.shareArmed = true ∧ 0 < f.capacity

section
variable {d : Du} {s : State}

theorem computeShare_shares (h : d.Shares s.pt.figs) : computeShare d s = { d with share := shareOf s.pt.figs } :=
  if_pos h

theorem computeShare_still (h : ¬ d.Shares s.pt.figs) : computeShare d s = d := if_neg h

theorem ramping_not_shares (h : d.Ramping) (f : Figures) : ¬ d.Shares f := fun hs => by
  have := h.1.symm.trans hs.1
  cases this

theorem resume_ramping (h : d.Ramping) :
    resume d = ({ d with state := .onbus, ramp := none, stopIntent := none }, moveReports .rampdown .onbus) := by
  obtain ⟨state, before⟩ := h
  simp [resume, state, before]

theorem resume_other (h : ¬ d.Ramping) : resume d = quiet d := by
  refine if_neg fun hr => h ⟨hr.1, ?_⟩
  simpa using hr.2

theorem abandonTest_ramping (h : d.Ramping) (hc : s.pt.figs.carrying = 0) : abandonTest d s =
    ({ d with state := .onbus, ramp := none, stopIntent := none },
      moveReports .rampdown .onbus ++ [.cc .rampAbandoned]) := by
  obtain ⟨state, before⟩ := id h
  simp [abandonTest, state, before, hc, resume_ramping h]

theorem lowOutput_iff : lowOutput s = true ↔ 20 * s.pcu.se.figure ≤ s.cfg.rating := by
  rw [lowOutput, decide_eq_true_iff, State.outputKw, Nat.mul_comm]

theorem abandonTest_other (h : ¬ (d.Ramping ∧ s.pt.figs.carrying = 0)) : abandonTest d s = quiet d := by
  refine if_neg fun hr => h ⟨⟨hr.1, ?_⟩, hr.2.2⟩
  simpa using hr.2.1

/-- The low output test of the ramp. -/
theorem ramp_low_iff : (d.state = .rampdown ∧ !d.tripIssued ∧ lowOutput s) ↔
    d.Ramping ∧ 20 * s.pcu.se.figure ≤ s.cfg.rating := by
  simp [Du.Ramping, lowOutput_iff, and_assoc]

theorem seWindow_low (h : d.Ramping) (low : 20 * s.pcu.se.figure ≤ s.cfg.rating) :
    seWindow d s = issueTrip { d with shareArmed := true } .normal := by
  have still : computeShare { d with shareArmed := true } s = { d with shareArmed := true } :=
    computeShare_still (ramping_not_shares (d := { d with shareArmed := true }) h _)
  simp only [seWindow, if_pos (ramp_low_iff.mpr ⟨h, low⟩), still]
  split
  next armed => rw [← armed]
  next => rfl

theorem seWindow_armed (h : ¬ (d.Ramping ∧ 20 * s.pcu.se.figure ≤ s.cfg.rating)) (armed : d.shareArmed = true) :
    seWindow d s = quiet d := by
  simp only [seWindow, if_pos armed, if_neg (mt ramp_low_iff.mp h)]

theorem seWindow_first (h : ¬ (d.Ramping ∧ 20 * s.pcu.se.figure ≤ s.cfg.rating)) (first : d.shareArmed = false) :
    seWindow d s = quiet (computeShare { d with shareArmed := true } s) := by
  simp only [seWindow, if_neg (ne_true_of_eq_false first), if_neg (mt ramp_low_iff.mp h)]

theorem enterRampdown_low (low : 20 * s.pcu.se.figure ≤ s.cfg.rating) : enterRampdown d s =
    ({ d with state := .rampdown, ramp := none, tripIssued := true },
      moveReports d.state .rampdown ++ [.fli (.command .breaker .off), .cc (.tripIssued .normal)]) :=
  if_pos (lowOutput_iff.mpr low)

theorem enterRampdown_ramps (high : s.cfg.rating < 20 * s.pcu.se.figure) : enterRampdown d s =
    ({ d with state := .rampdown, ramp := some 60000, tripIssued := false }, moveReports d.state .rampdown) :=
  if_neg (mt lowOutput_iff.mp (Nat.not_le.mpr high))

theorem rampSecond_ramping (h : d.Ramping) :
    rampSecond d s = { d with share := d.share - 10 * s.cfg.rampRate } := by
  obtain ⟨state, before⟩ := h
  simp [rampSecond, state, before, Nat.mul_comm]

theorem rampSecond_other (h : ¬ d.Ramping) : rampSecond d s = d := by
  refine if_neg fun hr => h ⟨hr.1, ?_⟩
  simpa using hr.2

theorem rampTimerEnd_ramping (h : d.Ramping) (running : d.ramp.isSome = true) :
    rampTimerEnd d = issueTrip d .forced := by
  obtain ⟨state, before⟩ := h
  simp [rampTimerEnd, state, before, running]

theorem rampTimerEnd_other (h : ¬ d.Ramping ∨ d.ramp = none) : rampTimerEnd d = quiet d := by
  refine if_neg fun ⟨state, running, before⟩ => ?_
  rcases h with h | still
  · exact h ⟨state, by simpa using before⟩
  · simp [still] at running

theorem not_ramping_iff : ¬ d.Ramping ↔ d.state ≠ .rampdown ∨ d.tripIssued = true := by
  simp [Du.Ramping, imp_iff_not_or]
end

/-! ### The changed figures told to the DU -/

/-- The figures told: what the test of the abandoned ramp does with S computed, or not, and the DU's own tests. -/
theorem duHandle_figures {s : State} {power : Bool} {e e' : Du} {rs : List Report}
    (he : (if power then computeShare s.du s else s.du) = e) (ha : abandonTest e s = (e', rs)) :
    duHandle (.figures power) s = (e', rs ++ [.du .test]) := by
  simp only [duHandle, he, ha, Act.andThen]

/-- The figures told when S stays and the ramp goes on. -/
theorem duHandle_figures_still {s : State} {power : Bool} (hs : power = true → ¬ s.du.Shares s.pt.figs)
    (hr : ¬ (s.du.Ramping ∧ s.pt.figs.carrying = 0)) : duHandle (.figures power) s = (s.du, [.du .test]) := by
  refine duHandle_figures (rs := []) ?_ (abandonTest_other hr)
  cases power with
  | false => rfl
  | true => exact computeShare_still (hs rfl)

theorem duHandle_figures_abandons {s : State} (power : Bool) (h : s.du.Ramping) (hc : s.pt.figs.carrying = 0) :
    duHandle (.figures power) s = ({ s.du with state := .onbus, ramp := none, stopIntent := none },
      moveReports .rampdown .onbus ++ [.cc .rampAbandoned, .du .test]) := by
  have still : (if power then computeShare s.du s else s.du) = s.du := by
    rw [computeShare_still (ramping_not_shares h _), ite_self]
  rw [duHandle_figures still (abandonTest_ramping h hc), List.append_assoc]
  rfl

theorem duHandle_figures_shares {s : State} (h : s.du.Shares s.pt.figs) :
    duHandle (.figures true) s = ({ s.du with share := shareOf s.pt.figs }, [.du .test]) := by
  refine duHandle_figures (rs := []) (computeShare_shares h) (abandonTest_other fun ⟨ramping, _⟩ => ?_)
  exact ramping_not_shares (d := { s.du with share := shareOf s.pt.figs }) ramping s.pt.figs h

theorem computeShare_mem_moveReports (st : SetState) : .du .computeShare ∈ moveReports st .onbus := by
  simp [moveReports]

/-! ### O36, clause by clause -/

theorem exec_rampSecond {s : State} (up : s.isUp = true) :
    exec .rampSecond s = .next { s with du := rampSecond s.du s } :=
  congrArg Host.Outcome.next (run_du_quiet up rfl)

theorem exec_rampTimerExpiry {s : State} (up : s.isUp = true) {d : Du} {rs : List Report}
    (h : rampTimerEnd s.du = (d, rs)) : exec .rampTimerExpiry s = .next (State.handOn { s with du := d } 1 rs) :=
  congrArg Host.Outcome.next (run_du up h)

/-- What the DU's act on a report makes of the state. -/
theorem deliver_du_of {m : DuMsg} {s : State} {d : Du} {rs : List Report} (h : duHandle m s = (d, rs)) :
    deliver (.du m) s = ({ s with du := d }, rs) := by
  rw [deliver_du, h]

theorem shareOf_eq (f : Figures) :
    shareOf f = min 1250 ((2 * ((f.load - f.releasing) * 1000) + f.capacity) / (2 * f.capacity)) :=
  clampTo_zero _ _

/-- Settles O36: the figures clause by clause, and each act of the DU on S and the ramp by its two or three cases. -/
theorem sharesAndRamps : Obligations.SharesAndRamps := by
  refine ⟨fun s l => ⟨figuresOf_capacity s l, figuresOf_load s l, figuresOf_releasing s l, figuresOf_carrying s l, rfl,
    figuresOf_showActive s l, figuresOf_handoverInGroup s l, figuresOf_lowestShed_none s l,
    fun k => figuresOf_lowestShed_some⟩,
    fun s => ⟨rfl, fun same => ?_, figureChanges_power, figureChanges_set, figureChanges_show, figureChanges_sc⟩,
    fun f _ => shareOf_eq f,
    fun s up => ⟨fun state before => ?_, fun other => ?_, fun state before running => ?_, fun other => ?_⟩,
    fun s => ⟨fun hs => ⟨?_, ?_⟩, fun hs => ⟨?_, fun hr => ?_⟩, fun hr hc power => ?_, fun hr => ?_,
      ⟨computeShare_mem_moveReports _, computeShare_mem_moveReports⟩, fun hr => ?_, fun hr => ?_, fun hr low => ?_,
      fun hl armed => ?_, fun hl first => ⟨fun state capacity => ?_, fun other => ?_⟩⟩,
    fun s => ⟨fun state high => ?_, fun state low => ?_, fun state => ?_, rfl⟩⟩
  · exact (congrArg (figureChanges s.pt.figs) same.symm).trans (figureChanges_self _)
  -- the ramp's second and timer
  · rw [exec_rampSecond up, rampSecond_ramping ⟨state, before⟩]
  · rw [exec_rampSecond up, rampSecond_other (not_ramping_iff.mpr other)]
  · exact exec_rampTimerExpiry up (rampTimerEnd_ramping ⟨state, before⟩ running)
  · rw [← or_assoc, ← not_ramping_iff] at other
    exact (exec_rampTimerExpiry up (rampTimerEnd_other other)).trans (congrArg _ (handOn_nil s 1))
  -- S
  · exact deliver_du_of (congrArg quiet (computeShare_shares hs))
  · exact deliver_du_of (duHandle_figures_shares hs)
  · exact deliver_du_of (congrArg quiet (computeShare_still hs))
  · exact deliver_du_of (duHandle_figures_still (fun _ => hs) hr)
  -- the ramp left for ONBUS
  · exact deliver_du_of (duHandle_figures_abandons power hr hc)
  · exact deliver_du_of (duHandle_figures_still nofun hr)
  · exact deliver_du_of (resume_ramping hr)
  · exact deliver_du_of (resume_other hr)
  -- the SE window
  · exact deliver_du_of (seWindow_low hr low)
  · exact deliver_du_of (seWindow_armed hl armed)
  · exact deliver_du_of ((seWindow_first hl first).trans
      (congrArg quiet (computeShare_shares (d := { s.du with shareArmed := true }) ⟨state, rfl, capacity⟩)))
  · have still : ¬ Du.Shares { s.du with shareArmed := true } s.pt.figs := fun ⟨state, _, capacity⟩ =>
      other.elim (· state) capacity.ne'
    exact deliver_du_of ((seWindow_first hl first).trans (congrArg quiet (computeShare_still still)))
  -- the CC's requests
  · exact deliver_du_of ((if_pos state).trans (state ▸ enterRampdown_ramps high))
  · exact deliver_du_of ((if_pos state).trans (state ▸ enterRampdown_low low))
  · exact deliver_du_of (if_neg state)

end Sys2Proof.Machine
end

section
/-! SUPPORT. The Dispatch Unit's entries to FAULT and STOPPED, the lines of the set and its breaker (O33). -/

namespace Sys2Proof.Machine

/-! ### FAULT entered and left -/

/-- The TRIP handed over at entry to FAULT, with the breaker closed or closing (R42). -/
def tripIf (closed : Bool) (s : State) : List Report :=
  if closed = true ∨ s.fli.closing = true then [.fli (.command .breaker .off)] else []

/-- The STOP handed over at entry to FAULT, with RUNNING active (R40, R42). -/
def stopIf (s : State) : List Report := if s.fli.inputs.running then [.fli (.command .genset .off)] else []

/-- FAULT can be left: FAULT and RUNNING inactive, the breaker open (R43). -/
def Du.MayLeaveFault (d : Du) (s : State) : Prop :=
  s.fli.inputs.fault = false ∧ s.fli.inputs.running = false ∧ d.breaker = false

section
variable {d : Du} {s : State}

theorem enterFault_faulted {cause : FaultCause} (h : d.state ≠ .fault) : enterFault d s cause =
    (d.faulted cause, (if cause = .tripFail then [] else tripIf d.breaker s) ++
      (if cause = .startFail ∨ cause = .closeFail then stopIf s else []) ++ moveReports d.state .fault) := by
  refine (if_neg h).trans (Prod.ext rfl ?_)
  cases cause <;> simp [tripIf, stopIf]

theorem enterFault_again (h : d.state = .fault) :
    enterFault d s .faultInput = quiet { d with cause := some .faultInput } := if_pos h

theorem exitTest_leaves (h : d.state = .fault) (out : d.MayLeaveFault s) : exitTest d s = enterStopped d := by
  obtain ⟨fault, running, opened⟩ := out
  simp [exitTest, h, fault, running, opened]

theorem exitTest_stays (h : ¬ d.MayLeaveFault s) : exitTest d s = quiet d := by
  refine if_neg fun ⟨_, fault, running, opened⟩ => h ⟨?_, ?_, ?_⟩
  · simpa using fault
  · simpa using running
  · simpa using opened

/-! ### STOPPED entered -/

/-- The DU in STOPPED, what else it holds as given (R43, R44). -/
def Du.stopped (d : Du) : Du :=
  { d with state := .stopped, origin := none, cause := none, share := 0, tripIssued := false, startTimer := none,
           cooldown := none, ramp := none, stopRepeat := none }

theorem enterStopped_held (h : d.heldStart.isSome = true) :
    enterStopped d = (d.stopped, moveReports d.state .stopped ++ [.du .takeHeld]) := by
  simp [enterStopped, h, Du.stopped]

theorem enterStopped_free (h : d.heldStart = none) : enterStopped d =
    (({ d.clearJoin with startIntent := none } : Du).stopped, moveReports d.state .stopped) := by
  simp [enterStopped, h, Du.stopped]

@[simp] theorem enterStopped_state (d : Du) : (enterStopped d).1.state = .stopped := rfl

@[simp] theorem enterStopped_breaker (d : Du) : (enterStopped d).1.breaker = d.breaker := by
  cases h : d.heldStart with
  | none => rw [enterStopped_free h]; rfl
  | some o => rw [enterStopped_held (by rw [h]; rfl)]; rfl

/-! ### RUNNING and READY -/

theorem runningChange_cranking (h : d.state = .cranking) : runningChange d s true =
    if s.fli.inputs.ready then enterReady d else ({ d with state := .warming }, moveReports .cranking .warming) := by
  simp only [runningChange, h]

theorem runningChange_stopped (h : d.state = .stopped) : runningChange d s true =
    if s.fli.inputs.ready then enterReady { d with origin := some .hand }
    else enterWarming { d with origin := some .hand } := by
  simp only [runningChange, h]

/-- RUNNING lost before the set is on bus: STOPPED, and START FAIL to the CC (R39). -/
theorem runningChange_fails (h : d.state = .warming ∨ d.state = .ready) : runningChange d s false =
    (enterStopped { d with startIntent := none, heldStart := none }).andThen fun e => (e, [.cc .startFail]) := by
  rcases h with h | h <;> simp only [runningChange, h]

theorem runningChange_cooling (h : d.state = .cooling) : runningChange d s false = enterStopped d := by
  simp only [runningChange, h]

theorem runningChange_lost (h : d.state = .onbus ∨ d.state = .rampdown) :
    runningChange d s false = enterFault d s .runLost := by
  rcases h with h | h <;> simp only [runningChange, h]

theorem runningChange_fault (h : d.state = .fault) (b : Bool) : runningChange d s b = exitTest d s := by
  simp only [runningChange, h]

theorem readyChange_closed (h : d.breaker = true) (b : Bool) : readyChange d b = quiet d := if_pos h

theorem readyChange_warming (h : d.state = .warming) (ho : d.breaker = false) : readyChange d true = enterReady d := by
  simp [readyChange, h, ho]

theorem readyChange_ready (h : d.state = .ready) (ho : d.breaker = false) : readyChange d false = enterWarming d := by
  simp [readyChange, h, ho]

/-! ### The breaker -/

theorem breakerClosed_joins (h : d.state = .warming ∨ d.state = .ready ∨ d.state = .cooling) (b : Bool) :
    breakerClosed d s b = enterOnbus { d with breaker := true } := by
  rcases h with h | h | h <;> simp only [breakerClosed, h]

theorem breakerClosed_early (h : d.state = .stopped ∨ d.state = .cranking) (b : Bool) : breakerClosed d s b =
    (({ d with breaker := true } : Du).faulted .runLost,
      .fli (.command .breaker .off) :: moveReports d.state .fault) := by
  have early : breakerClosed d s b = enterFault { d with breaker := true } s .runLost := by
    rcases h with h | h <;> simp only [breakerClosed, h]
  have off : d.state ≠ .fault := by rcases h with h | h <;> simp [h]
  rw [early, enterFault_faulted (d := { d with breaker := true }) off]
  simp [tripIf]

theorem breakerClosed_stands (h : d.state = .onbus ∨ d.state = .rampdown ∨ d.state = .fault) (b : Bool) :
    (breakerClosed d s b).1 = { d with breaker := true } := by
  rcases h with h | h | h <;> simp only [breakerClosed, h]

theorem breakerClosed_fault (h : d.state = .fault) (b : Bool) : (breakerClosed d s b).2 =
    (if b then [.fli (.command .breaker .off)] else []) ++ positionReports d.breaker true := by
  simp only [breakerClosed, h]

theorem breakerOpened_leaves (h : d.state = .onbus ∨ d.state = .rampdown) : breakerOpened d s = leaveBus d s := by
  rcases h with h | h <;> simp only [breakerOpened, h]

theorem breakerOpened_fault (h : d.state = .fault) : breakerOpened d s =
    (exitTest { d with breaker := false } s).andThen fun e => (e, positionReports d.breaker false) := by
  simp only [breakerOpened, h]

theorem breakerOpened_stands (h1 : d.state ≠ .onbus) (h2 : d.state ≠ .rampdown) (h3 : d.state ≠ .fault) :
    breakerOpened d s = ({ d with breaker := false }, positionReports d.breaker false) := by
  cases h : d.state <;> simp_all [breakerOpened]

theorem leaveBus_running (h : s.fli.inputs.running = true) :
    leaveBus d s = enterCooling { d with breaker := false } (some (s.cfg.cooldown * 1000)) none := if_pos h

theorem leaveBus_state (d : Du) (s : State) :
    (leaveBus d s).1.state = if s.fli.inputs.running then .cooling else .stopped := by
  unfold leaveBus
  split <;> rfl

theorem leaveBus_ramp (d : Du) (s : State) : (leaveBus d s).1.ramp = none := by
  unfold leaveBus
  split <;> rfl

theorem leaveBus_breaker (d : Du) (s : State) : (leaveBus d s).1.breaker = false := by
  unfold leaveBus
  split
  · rfl
  · exact enterStopped_breaker _

/-- The breaker found open is held open in every state. -/
theorem breakerOpened_breaker (d : Du) (s : State) : (breakerOpened d s).1.breaker = false := by
  by_cases bus : d.state = .onbus ∨ d.state = .rampdown
  · rw [breakerOpened_leaves bus, leaveBus_breaker]
  by_cases fault : d.state = .fault
  · rw [breakerOpened_fault fault, andThen_fst]
    by_cases out : ({ d with breaker := false } : Du).MayLeaveFault s
    · rw [exitTest_leaves (d := { d with breaker := false }) fault out]
      exact enterStopped_breaker _
    · rw [exitTest_stays out]
      rfl
  · rw [not_or] at bus
    rw [breakerOpened_stands bus.1 bus.2 fault]

theorem breakerFailed_close (h : d.state ≠ .fault) : breakerFailed d s .on =
    (({ d with breaker := s.fli.inputs.brk } : Du).faulted .closeFail,
      tripIf s.fli.inputs.brk s ++ stopIf s ++ moveReports d.state .fault) :=
  (if_neg h).trans (enterFault_faulted h)

theorem breakerFailed_trip (h : d.state ≠ .fault) : breakerFailed d s .off =
    (({ d with breaker := s.fli.inputs.brk } : Du).faulted .tripFail,
      moveReports d.state .fault ++ [.cc .tripFail]) := by
  have entered : enterFault { d with breaker := s.fli.inputs.brk } s .tripFail =
      (({ d with breaker := s.fli.inputs.brk } : Du).faulted .tripFail, moveReports d.state .fault) :=
    enterFault_faulted h
  simp only [breakerFailed, if_neg h, entered, Act.andThen]
end

/-! ### O33, clause by clause -/

section
variable {s : State} {m : DuMsg}

/-- The breaker found closed, by command or by hand. -/
theorem duHandle_closed (h : m = .confirmed .on ∨ m = .uncommanded true) :
    ∃ b, duHandle m s = breakerClosed s.du s b := by
  rcases h with rfl | rfl
  exacts [⟨true, rfl⟩, ⟨false, rfl⟩]

/-- The breaker found open, by command or by hand. -/
theorem duHandle_opened (h : m = .confirmed .off ∨ m = .uncommanded false) :
    duHandle m s = breakerOpened s.du s := by
  rcases h with rfl | rfl <;> rfl

/-- RUNNING or FAULT gone inactive in FAULT: the test that lets the set out (R43). -/
theorem duHandle_exits (state : s.du.state = .fault) (h : m = .running false ∨ m = .faultInput false) :
    duHandle m s = exitTest s.du s := by
  rcases h with rfl | rfl
  exacts [runningChange_fault state false, rfl]
end

/-- Settles O33: each change of a line, and each result of a breaker command, by the lemma of its state. -/
theorem setFollowsItsLines : Obligations.SetFollowsItsLines := by
  intro s d after told trip stop moved
  have faultInput (h : d.state ≠ .fault) : duHandle (.faultInput true) s = (_, trip d.breaker ++ [] ++ moved) :=
    enterFault_faulted h
  have faultAgain (h : d.state = .fault) : duHandle (.faultInput true) s = _ := enterFault_again h
  have lost (h : d.state = .onbus ∨ d.state = .rampdown) :
      duHandle (.running false) s = (d.faulted .runLost, trip d.breaker ++ [] ++ moved) := by
    refine (runningChange_lost h).trans (enterFault_faulted ?_)
    rcases h with h | h <;> simp [h]
  have exits {m : DuMsg} (hf : d.state = .fault) (hm : m = .running false ∨ m = .faultInput false)
      (out : d.MayLeaveFault s) : duHandle m s = enterStopped d :=
    (duHandle_exits hf hm).trans (exitTest_leaves hf out)
  refine ⟨fun h hr => ?_, fun h hr => ?_, fun h => ?_, fun h => congrArg Prod.fst (lost h), fun h ho => ?_,
    fun h ho => ?_, fun h b => congrArg Prod.fst (readyChange_closed h b), fun h => ⟨?_, fun hr => ?_, fun hr => ?_⟩,
    fun h => congrArg Prod.fst (faultInput h), fun h => congrArg Prod.fst (faultAgain h),
    fun h => ⟨congrArg Prod.fst (breakerFailed_close h), congrArg Prod.fst (breakerFailed_trip h)⟩, fun h => ?_,
    fun m hm => ⟨fun h => ?_, fun h => ?_⟩, fun h => ?_, fun m hm => ⟨?_, fun h => ⟨?_, ?_, fun hr => ?_⟩, fun h => ?_,
      fun h1 h2 h3 => ?_⟩, fun h hf hr hb => ?_,
    fun h => (congrArg Prod.snd (faultInput h)).trans (by simp), fun h => (congrArg Prod.snd (lost h)).trans (by simp),
    fun h => ⟨congrArg Prod.snd (breakerFailed_close h), congrArg Prod.snd (breakerFailed_trip h)⟩,
    fun h m hm => ?_, fun h => congrArg Prod.snd (faultAgain h), fun h m hm => ⟨fun out => ?_, fun stays => ?_⟩⟩
  -- CRANKING
  · exact congrArg (·.1.state) ((runningChange_cranking h).trans (if_neg (ne_true_of_eq_false hr)))
  · exact congrArg (·.1.state) ((runningChange_cranking h).trans (if_pos hr))
  -- RUNNING lost off the bus
  · rcases or_assoc.mpr h with h | h
    · exact congrArg (·.1.state) (runningChange_fails h)
    · exact congrArg (·.1.state) (runningChange_cooling h)
  -- READY
  · exact congrArg (·.1.state) (readyChange_warming h ho)
  · exact congrArg (·.1.state) (readyChange_ready h ho)
  -- the hand start
  · refine (congrArg (·.1.origin) (runningChange_stopped h)).trans ?_
    split <;> rfl
  · exact congrArg (·.1.state) ((runningChange_stopped h).trans (if_pos hr))
  · have warmed := (runningChange_stopped h).trans (if_neg (ne_true_of_eq_false hr))
    exact ⟨congrArg (·.1.state) warmed, congrArg (·.1.startTimer) warmed⟩
  -- the breaker closed
  · have joined (b : Bool) : (breakerClosed d s b).1 = _ := congrArg Prod.fst (breakerClosed_joins h b)
    exact ⟨congrArg (·.state) (joined true), congrArg (·.state) (joined false), congrArg (·.breaker) (joined true),
      congrArg (·.join) (joined true), congrArg (·.cooldown) (joined true), congrArg (·.stopRepeat) (joined true)⟩
  · obtain ⟨b, closed⟩ := duHandle_closed (s := s) hm
    have early := closed.trans (breakerClosed_early h b)
    exact ⟨congrArg Prod.fst early, (congrArg Prod.snd early) ▸ List.mem_cons_self⟩
  · obtain ⟨b, closed⟩ := duHandle_closed (s := s) hm
    exact (congrArg Prod.fst closed).trans (breakerClosed_stands h b)
  · exact (breakerClosed_fault h true) ▸ List.mem_cons_self
  -- the breaker opened
  · exact (congrArg (·.1.breaker) (duHandle_opened hm)).trans (breakerOpened_breaker d s)
  · exact (congrArg (·.1.state) ((duHandle_opened hm).trans (breakerOpened_leaves h))).trans (leaveBus_state d s)
  · exact (congrArg (·.1.ramp) ((duHandle_opened hm).trans (breakerOpened_leaves h))).trans (leaveBus_ramp d s)
  · exact congrArg (·.1.cooldown) ((duHandle_opened hm).trans ((breakerOpened_leaves h).trans (leaveBus_running hr)))
  · have tested : (after m).state = (exitTest { d with breaker := false } s).1.state :=
      congrArg (·.1.state) ((duHandle_opened hm).trans (breakerOpened_fault h))
    rw [tested]
    split
    next out => rw [exitTest_leaves (d := { d with breaker := false }) h ⟨out.1, out.2, rfl⟩, enterStopped_state]
    next stays => rw [exitTest_stays fun out => stays ⟨out.1, out.2.1⟩, quiet_fst, h]
  · exact congrArg Prod.fst ((duHandle_opened hm).trans (breakerOpened_stands h1 h2 h3))
  -- FAULT left
  · have left := exits h (.inr rfl) ⟨hf, hr, hb⟩
    exact ⟨congrArg (·.1.state) left, congrArg (·.1.cause) left, congrArg (·.1.origin) left⟩
  · obtain ⟨b, closed⟩ := duHandle_closed (s := s) hm
    exact congrArg Prod.snd (closed.trans (breakerClosed_early h b))
  · have left := exits h hm out
    refine ⟨congrArg (·.1.state) left, congrArg (·.1.cause) left, congrArg (·.1.origin) left, fun free => ?_⟩
    exact h ▸ congrArg Prod.snd (left.trans (enterStopped_free free))
  · have stayed := (duHandle_exits h hm).trans (exitTest_stays stays)
    exact ⟨congrArg Prod.fst stayed, congrArg Prod.snd stayed⟩

end Sys2Proof.Machine
end

section
/-! SUPPORT. Start requests, stop requests, the start timer, the cooldown and the stop repeat timer (O34, O35). -/

namespace Sys2Proof.Machine

/-! ### A report that leaves the DU as it is, and one that hands STOP over -/

section
variable {s : State}

theorem run_du_void (up : s.isUp = true) {m : DuMsg} (h : duHandle m s = quiet s.du) : s.run [.du m] = s :=
  run_du_quiet up h

/-- A command to the set is confirmed to nobody. -/
theorem fliCommand_genset_told (x : Fli) (c : Sense) : (fliCommand x .genset c).2 = [] := by
  unfold fliCommand
  dsimp only
  split
  · split <;> rfl
  · split <;> rfl

/-- A command to the set is worked off by the FLI, and nothing else happens. -/
theorem handOn_genset (s : State) (c : Sense) : s.handOn 1 [.fli (.command .genset c)] =
    { s with fli := (fliCommand s.fli .genset c).1 } := by
  rw [handOn_cons _ _ _ (by decide), deliver_fli, List.append_nil]
  simp only [fliHandle, fliCommand_genset_told, handOn_nil]
end

/-! ### Start requests (R38) -/

section
variable {d : Du} {s : State} {o : Origin}

theorem absorbOrigin_eq (old : Option Origin) (o : Origin) :
    absorbOrigin old o = if old = none ∨ old = some .hand then some o else old := by
  cases old with
  | none => simp [absorbOrigin]
  | some p => cases p <;> simp [absorbOrigin]

theorem startRequest_stopped (h : d.state = .stopped) : startRequest d s o =
    ({ d with state := .cranking, origin := some o, startTimer := some 120000, heldStart := none },
      .fli (.command .genset .on) :: moveReports .stopped .cranking) := by
  simp only [startRequest, h, List.singleton_append]

/-- On the way up a start request is absorbed. -/
theorem startRequest_absorbed (h : d.state = .cranking ∨ d.state = .warming ∨ d.state = .ready) :
    startRequest d s o = quiet
      { d with origin := if d.origin = none ∨ d.origin = some .hand then some o else d.origin } := by
  rw [← absorbOrigin_eq]
  rcases h with h | h | h <;> simp only [startRequest, h]

/-- In COOLING before STOP the set goes back to READY or WARMING. -/
theorem startRequest_recalled (h : d.state = .cooling) (before : d.cooldown.isSome = true) : startRequest d s o =
    if s.fli.inputs.ready then enterReady { d with cooldown := none, origin := some o }
    else enterWarming { d with cooldown := none, origin := some o } := by
  simp only [startRequest, h, before, if_true]

/-- In COOLING after STOP a start is held. -/
theorem startRequest_held (h : d.state = .cooling) (after : d.cooldown = none) :
    startRequest d s o = quiet { d with heldStart := some o } := by
  simp [startRequest, h, after]

theorem startRequest_onbus (h : d.state = .onbus ∨ d.state = .rampdown) : startRequest d s o = quiet d := by
  rcases h with h | h <;> simp only [startRequest, h]

theorem startRequest_fault (h : d.state = .fault) :
    startRequest d s o = (d, if o = .call then [.cc .startFail] else []) := by
  simp only [startRequest, h]

theorem takeHeld_taken (h : d.heldStart = some o) (state : d.state = .stopped) :
    takeHeld d s = startRequest { d with heldStart := none } s o := by
  simp only [takeHeld, h, state, if_true]

theorem takeHeld_void (h : d.heldStart = none ∨ d.state ≠ .stopped) : takeHeld d s = quiet d := by
  cases held : d.heldStart with
  | none => simp only [takeHeld, held]
  | some p =>
      have state : d.state ≠ .stopped := h.resolve_left (by simp [held])
      simp only [takeHeld, held, if_neg state]

/-! ### The start timer (R40) -/

theorem comingUp_iff {st : SetState} : comingUp st = true ↔ st = .cranking ∨ st = .warming := by
  simp [comingUp]

theorem startTimerEnd_void (h : d.startTimer = none ∨ (d.state ≠ .cranking ∧ d.state ≠ .warming)) :
    startTimerEnd d s = quiet d := by
  refine if_neg fun expires => ?_
  rw [Bool.and_eq_true, comingUp_iff] at expires
  obtain ⟨running, coming⟩ := expires
  rcases h with still | ⟨cranking, warming⟩
  · simp [still] at running
  · exact coming.elim cranking warming

theorem startTimerEnd_expires (running : d.startTimer.isSome = true) (h : d.state = .cranking ∨ d.state = .warming) :
    startTimerEnd d s = (d.faulted .startFail,
      tripIf d.breaker s ++ stopIf s ++ moveReports d.state .fault ++ [.cc .startFail]) := by
  have expires : (d.startTimer.isSome && comingUp d.state) = true := by rw [running, comingUp_iff.mpr h]; rfl
  have faulted : enterFault d s .startFail =
      (d.faulted .startFail, tripIf d.breaker s ++ stopIf s ++ moveReports d.state .fault) :=
    enterFault_faulted (by rcases h with h | h <;> simp [h])
  simp only [startTimerEnd, expires, if_true, faulted, Act.andThen]
end

/-- Settles O34: the start timer's expiry, and a start request state by state. -/
theorem startFailureFaultsTheSet : Obligations.StartFailureFaultsTheSet := by
  refine ⟨fun s up => ⟨fun h => ?_, fun running h => ⟨?_, rfl, rfl, rfl⟩, fun h => ⟨?_, fun o ho => ?_⟩⟩,
    fun s o => ⟨rfl, fun h => startRequest_stopped h, fun h => startRequest_absorbed h,
      fun h before => ⟨fun hr => ?_, fun hr => ?_⟩, fun h past => startRequest_held h past,
      fun h => startRequest_onbus h, fun p held => ⟨fun h => ?_, fun h => ?_⟩, fun h => ?_⟩⟩
  · exact congrArg Host.Outcome.next (run_du_void up (startTimerEnd_void h))
  · exact congrArg Host.Outcome.next (run_du up (startTimerEnd_expires running h))
  · exact deliver_du_of (startRequest_fault h)
  · exact (startRequest_fault h).trans (by rw [if_neg ho]; rfl)
  -- before STOP in COOLING
  · rw [startRequest_recalled h before, if_pos hr]
    simp [enterReady, h]
  · rw [startRequest_recalled h before, if_neg (ne_true_of_eq_false hr)]
    simp [enterWarming, h]
  -- a held start
  · refine deliver_du_of ((runningChange_cooling h).trans ?_)
    rw [enterStopped_held (by rw [held]; rfl), h]
    rfl
  · exact deliver_du_of ((takeHeld_taken held h).trans (startRequest_stopped h))
  · exact deliver_du_of (takeHeld_void h)

/-! ### Stop requests (R44) -/

section
variable {d : Du} {s : State}

/-- A stop request to a set that turns: COOLING, STOP handed over and to be repeated. -/
theorem stopRequest_cools
    (h : (d.state = .cranking ∧ s.fli.inputs.running = true) ∨ d.state = .warming ∨ d.state = .ready) :
    stopRequest d s = (d.stopping, .fli (.command .genset .off) :: moveReports d.state .cooling) := by
  rcases h with ⟨h, running⟩ | h | h
  · simp only [stopRequest, h, running, if_true]
    simp [enterCooling, Du.stopping, Du.clearJoin, h]
  · simp only [stopRequest, h]
    simp [enterCooling, Du.stopping, Du.clearJoin, h]
  · simp only [stopRequest, h]
    simp [enterCooling, Du.stopping, Du.clearJoin, h]

/-- A stop request to a set that does not turn yet: STOPPED. -/
theorem stopRequest_stops (h : d.state = .cranking) (still : s.fli.inputs.running = false) : stopRequest d s =
    (({ d.clearJoin with startIntent := none, heldStart := none } : Du).stopped,
      .fli (.command .genset .off) :: moveReports .cranking .stopped) := by
  simp only [stopRequest, h, still, Bool.false_eq_true, if_false, enterStopped_free, List.singleton_append]
  rfl

theorem stopRequest_cooling (h : d.state = .cooling) : stopRequest d s = quiet (dropHeld d) := by
  simp only [stopRequest, h]

theorem stopRequest_ignored (h : d.state = .stopped ∨ d.state = .onbus ∨ d.state = .rampdown ∨ d.state = .fault) :
    stopRequest d s = quiet d := by
  rcases h with h | h | h | h <;> simp only [stopRequest, h]

theorem dropHeld_none (h : d.heldStart = none) : dropHeld d = d := by simp [dropHeld, h]

theorem dropHeld_some (h : d.heldStart.isSome = true) : dropHeld d = { d.clearJoin with heldStart := none } :=
  if_pos h

theorem ccStopRequest_call (h : d.origin = some .call) : ccStopRequest d s = stopRequest d s := if_pos h

theorem ccStopRequest_other (h : d.origin ≠ some .call) : ccStopRequest d s = quiet (dropHeld d) := if_neg h

/-! ### The cooldown and the stop repeat timer (R44) -/

theorem cooldownEnd_void (h : d.cooldown = none ∨ d.state ≠ .cooling) : cooldownEnd d = quiet d := by
  refine if_neg fun expires => ?_
  rw [Bool.and_eq_true, beq_iff_eq] at expires
  obtain ⟨running, state⟩ := expires
  rcases h with still | other
  · simp [still] at running
  · exact other state

theorem cooldownEnd_expires (running : d.cooldown.isSome = true) (h : d.state = .cooling) : cooldownEnd d =
    ({ d with cooldown := none, stopRepeat := some 30000 }, [.fli (.command .genset .off)]) := by
  simp [cooldownEnd, running, h]

theorem stopRepeatEnd_void (h : d.stopRepeat = none ∨ s.fli.inputs.running = false) :
    stopRepeatEnd d s = quiet d := by
  refine if_neg fun expires => ?_
  rw [Bool.and_eq_true] at expires
  obtain ⟨waiting, running⟩ := expires
  rcases h with still | stopped
  · simp [still] at waiting
  · simp [stopped] at running

theorem stopRepeatEnd_expires (waiting : d.stopRepeat.isSome = true) (running : s.fli.inputs.running = true) :
    stopRepeatEnd d s = ({ d with stopRepeat := some 30000 }, [.fli (.command .genset .off)]) := by
  simp [stopRepeatEnd, waiting, running]
end

/-- A stop request that only drops a held start, with the join request waiting for it (R38, log 49). -/
theorem deliver_reqStop_drops {s : State} (h : ccStopRequest s.du s = quiet (dropHeld s.du)) :
    (s.du.heldStart = none → deliver (.du .reqStop) s = (s, [])) ∧
    (s.du.heldStart.isSome = true →
      deliver (.du .reqStop) s = ({ s with du := { s.du.clearJoin with heldStart := none } }, [])) := by
  refine ⟨fun free => deliver_du_of (h.trans ?_), fun held => deliver_du_of (h.trans ?_)⟩
  · rw [dropHeld_none free]
    rfl
  · rw [dropHeld_some held]
    rfl

/-- Settles O35: the two timers, and the CC's stop request by the origin and the state of the set. -/
theorem stopsAreRepeated : Obligations.StopsAreRepeated := by
  refine ⟨fun s up => ⟨fun h => ?_, fun running h => ?_, fun h => ?_, fun waiting running => ?_⟩,
    fun s => ⟨fun call => ⟨fun h still => ?_, fun h => ?_,
      fun h => deliver_reqStop_drops ((ccStopRequest_call call).trans (stopRequest_cooling h)), fun h => ?_⟩,
      fun other => deliver_reqStop_drops (ccStopRequest_other other)⟩⟩
  · exact congrArg Host.Outcome.next (run_du_void up (cooldownEnd_void h))
  · exact congrArg Host.Outcome.next ((run_du (m := .cooldown) up (cooldownEnd_expires running h)).trans
      (handOn_genset _ _))
  · exact congrArg Host.Outcome.next (run_du_void up (stopRepeatEnd_void h))
  · exact congrArg Host.Outcome.next ((run_du (m := .stopRepeat) up
      (stopRepeatEnd_expires waiting running)).trans (handOn_genset _ _))
  -- a set of origin CALL
  · exact deliver_du_of ((ccStopRequest_call call).trans (stopRequest_stops h still))
  · exact deliver_du_of ((ccStopRequest_call call).trans (stopRequest_cools h))
  · exact deliver_du_of ((ccStopRequest_call call).trans (stopRequest_ignored h))

end Sys2Proof.Machine
end

section
/-! SUPPORT. Join requests, dead-bus claims, failed joins, and the frames the Dispatch Unit hears (O40). -/

namespace Sys2Proof.Machine

/-! ### Frames that reach the DU (R165, R166) -/

section
variable {s : State} {h : Header} {p : List Byte}

theorem Kind.ofCode?_code (k : Kind) : Kind.ofCode? (BitVec.ofNat 8 k.code).toNat = some k := by cases k <;> rfl

/-- An accepted frame of a station kind and of its kind's length is handed to the unit that owns the kind, from the
state the frame's end leaves. -/
theorem run_stationFrame {k : Kind} (ha : Accepts s h) (hf : FromStation h) (hk : k.stationKind = true)
    (hl : lengthTest k p = true) : s.run [frameOf k h p] = s.heard.handOn 1 (frameReport h k p) := by
  obtain ⟨up, -⟩ := id ha
  obtain ⟨group, low, high⟩ := hf
  have taken : k.notTaken = false := by
    revert hk
    cases k <;> decide
  have noTool : k ≠ .toolCommand := by rintro rfl; cases hk
  have sender : senderTest h k = true := by
    simp only [senderTest, bne_iff_ne.mpr group, low, high, decide_true, Bool.and_self, Bool.or_true]
  have told : lcHandle (.frame h (BitVec.ofNat 8 k.code) p) s = (s.heard.lc, frameReport h k p) :=
    (frameEnd_of_accepts ha _ _).trans
      (by simp only [dispatchFrame, Kind.ofCode?_code, taken, sender, hl, noTool, Bool.not_true, Bool.or_self,
        Bool.false_eq_true, if_false])
  rw [run_one up, frameOf, deliver_lc, told]
  rfl

/-- A frame for the DU: what the DU makes of it is handed on. -/
theorem run_frame_du {k : Kind} {m : DuMsg} {d : Du} {rs : List Report} (ha : Accepts s h) (hf : FromStation h)
    (hk : k.stationKind = true) (hl : lengthTest k p = true) (hr : frameReport h k p = [.du m])
    (hm : duHandle m s.heard = (d, rs)) : s.run [frameOf k h p] = State.handOn { s.heard with du := d } 2 rs := by
  rw [run_stationFrame ha hf hk hl, hr, handOn_cons _ _ _ (by decide), deliver_du_of hm, List.append_nil]

theorem exec_deadbusClaimReceived {d : Du} {rs : List Report} (ha : Accepts s h) (hf : FromStation h)
    (hl : p.length = 3) (hm : hearClaim s.du s.heard h.sender.toNat (keysOf p) = (d, rs)) :
    exec (.deadbusClaimReceived h p) s = .next (State.handOn { s.heard with du := d } 2 rs) :=
  congrArg Host.Outcome.next (run_frame_du ha hf rfl (beq_iff_eq.mpr hl) rfl hm)
end

/-! ### A join request tried (R49, R57) -/

/-- A claim may be sent: READY, no CLOSE under way, the bus dead, no claim hold running, no DUPLICATE. -/
def Du.MayClaim (d : Du) (s : State) : Prop :=
  d.state = .ready ∧ s.fli.closing = false ∧ s.fli.inputs.busLive = false ∧ d.claimHold = none ∧ s.lc.duplicate = false

/-- The DEADBUS CLAIM of a READY set. -/
def claimFrame (s : State) : Report := duFrame s .deadbusClaim (1 :: beBytes 2 s.fu.hours)

/-- The mode a join request takes from BUS LIVE (R49). -/
def joinMode (s : State) : JoinMode := if s.fli.inputs.busLive then .bySync else .byClaim

/-- The join timer started unless it runs (R49). -/
def Du.timed (d : Du) : Du := { d with joinTimer := if d.joinTimer = none then some 60000 else d.joinTimer }

section
variable {d : Du} {s : State}

theorem timed_eq (d : Du) :
    d.timed = { d with joinTimer := if d.joinTimer.isNone then some 60000 else d.joinTimer } := by
  simp only [Du.timed, Option.isNone_iff_eq_none]

theorem joinMode_live (h : s.fli.inputs.busLive = true) : joinMode s = .bySync := if_pos h

theorem joinMode_dead (h : s.fli.inputs.busLive = false) : joinMode s = .byClaim := if_neg (ne_true_of_eq_false h)

theorem tryJoin_away (h : d.state ≠ .ready ∨ s.fli.closing = true) : tryJoin d s = quiet d := if_pos h

theorem tryJoin_none (h : d.join = none) : tryJoin d s = quiet d := by
  unfold tryJoin
  split
  · rfl
  · simp only [h]

theorem tryJoin_sync (h : d.join = some .bySync) : tryJoin d s =
    (d, if d.state = .ready ∧ s.fli.closing = false ∧ s.fli.inputs.syncOk = true then [.fli (.command .breaker .on)]
      else []) := by
  by_cases away : d.state ≠ .ready ∨ s.fli.closing = true
  · rw [tryJoin_away away, if_neg fun close => away.elim (· close.1) (by simp [close.2.1])]
    rfl
  · simp only [tryJoin, if_neg away, h]
    simp only [not_or, not_not, Bool.not_eq_true] at away
    simp only [away, true_and]

theorem tryJoin_claims (h : d.join = some .byClaim) (may : d.MayClaim s) :
    tryJoin d s = (d.claiming s.fu.hours, [claimFrame s]) := by
  obtain ⟨ready, notClosing, dead, noHold, single⟩ := may
  simp [tryJoin, sendClaim, claimFrame, Du.claiming, flagByte, h, ready, notClosing, dead, noHold, single]

theorem tryJoin_unclaimed (h : d.join = some .byClaim) (may : ¬ d.MayClaim s) : tryJoin d s = quiet d := by
  by_cases away : d.state ≠ .ready ∨ s.fli.closing = true
  · exact tryJoin_away away
  · simp only [tryJoin, if_neg away, h]
    simp only [not_or, not_not, Bool.not_eq_true] at away
    refine if_neg fun claims => may ⟨away.1, away.2, ?_⟩
    simpa [and_assoc] using claims

/-! ### A join request made (R49) -/

theorem joinRequest_dropped (h : d.state = .onbus ∨ d.state = .rampdown ∨ d.state = .fault) :
    joinRequest d s = quiet d := by
  rcases h with h | h | h <;> simp only [joinRequest, h]

/-- Off READY the request is held. -/
theorem joinRequest_waits
    (h : d.state = .stopped ∨ d.state = .cranking ∨ d.state = .warming ∨ d.state = .cooling) :
    joinRequest d s = quiet { d with join := some (joinMode s) } := by
  have off : d.state ≠ .ready := by rcases h with h | h | h | h <;> simp [h]
  have tried : joinRequest d s = tryJoin { d with join := some (joinMode s), joinTimer :=
      if d.state = .ready ∧ d.joinTimer.isNone then some 60000 else d.joinTimer } s := by
    rcases h with h | h | h | h <;> simp only [joinRequest, h, joinMode]
  rw [tried, if_neg fun ready => off ready.1]
  exact tryJoin_away (d := { d with join := some (joinMode s) }) (.inl off)

theorem joinRequest_ready (h : d.state = .ready) :
    joinRequest d s = tryJoin { d.timed with join := some (joinMode s) } s := by
  simp only [joinRequest, h, true_and, Option.isNone_iff_eq_none, Du.timed, joinMode]

theorem joinRequest_live (h : d.state = .ready) (live : s.fli.inputs.busLive = true) : joinRequest d s =
    ({ d.timed with join := some .bySync },
      if s.fli.closing = false ∧ s.fli.inputs.syncOk = true then [.fli (.command .breaker .on)] else []) := by
  rw [joinRequest_ready h, joinMode_live live, tryJoin_sync rfl]
  simp [Du.timed, h]

theorem joinRequest_claims (may : d.MayClaim s) :
    joinRequest d s = (d.timed.claiming s.fu.hours, [claimFrame s]) := by
  obtain ⟨ready, -, dead, -⟩ := id may
  rw [joinRequest_ready ready, joinMode_dead dead]
  exact tryJoin_claims (d := { d.timed with join := some .byClaim }) rfl may

theorem joinRequest_unclaimed (h : d.state = .ready) (dead : s.fli.inputs.busLive = false) (may : ¬ d.MayClaim s) :
    joinRequest d s = quiet { d.timed with join := some .byClaim } := by
  rw [joinRequest_ready h, joinMode_dead dead]
  exact tryJoin_unclaimed (d := { d.timed with join := some .byClaim }) rfl may

/-! ### BUS LIVE changes (R49, R57, R58) -/

theorem busLiveChange_live (d : Du) (s : State) : busLiveChange d s true =
    ({ d with
        claim := none, claimHold := none, rival := none, claimWait := none
        join := if d.join.isSome = true ∧ s.fli.closing = false then some .bySync else d.join },
      if (d.state = .ready ∧ s.fli.closing = false) ∧ d.join.isSome = true ∧ s.fli.inputs.syncOk = true
        then [.fli (.command .breaker .on)] else []) := by
  by_cases follows : d.join.isSome = true ∧ s.fli.closing = false
  · obtain ⟨held, notClosing⟩ := follows
    simp only [busLiveChange, held, notClosing, Bool.not_false, Bool.and_self, if_true, tryJoin_sync]
    simp
  · have stays : (d.join.isSome && !s.fli.closing) = false := by
      simpa [← Bool.not_eq_true] using follows
    have close : ¬ ((d.state = .ready ∧ s.fli.closing = false) ∧ d.join.isSome = true ∧ s.fli.inputs.syncOk = true) :=
      fun ⟨⟨_, notClosing⟩, held, _⟩ => follows ⟨held, notClosing⟩
    simp only [busLiveChange, stays, if_true, if_neg follows, if_neg close, Bool.false_eq_true, if_false]
    cases join : d.join with
    | none => exact tryJoin_none rfl
    | some m =>
        refine tryJoin_away (.inr ?_)
        simpa [join] using stays

/-- A dead bus leaves a station without a request, or with its CLOSE handed over, as it is. -/
theorem busLiveChange_stays (h : d.join = none ∨ s.fli.closing = true) : busLiveChange d s false = quiet d := by
  rcases h with h | h
  · simp [busLiveChange, h, tryJoin_none]
  · simp [busLiveChange, h, tryJoin_away]

theorem busLiveChange_dead (held : d.join.isSome = true) (notClosing : s.fli.closing = false) :
    busLiveChange d s false = tryJoin { d with join := some .byClaim } s := by
  simp [busLiveChange, held, notClosing]

/-! ### The claim hold and the wait after it (R57, R58) -/

theorem claimHoldEnd_void (h : d.claimHold = none) : claimHoldEnd d s = quiet d := if_pos (by rw [h]; rfl)

theorem claimHoldEnd_ends (h : d.claimHold.isSome = true) : claimHoldEnd d s =
    ({ d with claim := none, claimHold := none },
      if d.state = .ready ∧ d.join = some .byClaim ∧ s.fli.inputs.busLive = false
        then [.fli (.command .breaker .on)] else []) := by
  simp only [claimHoldEnd, Option.isNone_eq_false_iff.mpr h, Bool.false_eq_true, if_false, Bool.not_eq_true']

theorem hearClaim_void (n : Nat) (keys : Keys) (h : d.claim = none ∨ d.claimHold = none) :
    hearClaim d s n keys = quiet d := by
  unfold hearClaim
  split
  next own claim =>
    have none : d.claimHold = none := h.resolve_left (by simp [claim])
    simp [none]
  · rfl

theorem hearClaim_behind {n : Nat} {keys own : Keys} (h : d.claim = some own)
    (behind : startAhead keys n own s.cfg.station = false) : hearClaim d s n keys = quiet d := by
  simp [hearClaim, h, behind]

/-- The rival wins: the hold ends, the wait begins, and the request is BY SYNC. -/
theorem hearClaim_loses {n : Nat} {keys own : Keys} (h : d.claim = some own) (hold : d.claimHold.isSome = true)
    (ahead : startAhead keys n own s.cfg.station = true) : hearClaim d s n keys =
      ({ d with claim := none, claimHold := none, rival := some n, claimWait := some 20000, join := some .bySync },
        if d.state = .ready ∧ s.fli.closing = false ∧ s.fli.inputs.syncOk = true
          then [.fli (.command .breaker .on)] else []) := by
  simp only [hearClaim, h, hold, ahead, Bool.and_self, if_true]
  exact tryJoin_sync rfl

theorem claimWaitEnd_void (h : d.claimWait = none) : claimWaitEnd d s = quiet d := if_pos (by rw [h]; rfl)

/-- The wait is over, and nothing is left to claim. -/
theorem claimWaitEnd_over (h : d.claimWait.isSome = true)
    (live : ¬ (d.join.isSome = true ∧ s.fli.inputs.busLive = false ∧ s.lc.duplicate = false)) :
    claimWaitEnd d s = quiet { d with claimWait := none, rival := none } := by
  simp only [claimWaitEnd, Option.isNone_eq_false_iff.mpr h, Bool.false_eq_true, if_false, Bool.not_eq_true',
    if_neg live]

/-- The wait is over on a dead bus: the request is BY CLAIM again, and is tried. -/
theorem claimWaitEnd_again (h : d.claimWait.isSome = true)
    (dead : d.join.isSome = true ∧ s.fli.inputs.busLive = false ∧ s.lc.duplicate = false) :
    claimWaitEnd d s = tryJoin { d with claimWait := none, rival := none, join := some .byClaim } s := by
  simp only [claimWaitEnd, Option.isNone_eq_false_iff.mpr h, Bool.false_eq_true, if_false, Bool.not_eq_true',
    if_pos dead]

theorem claimWaitEnd_claims (h : d.claimWait.isSome = true) (held : d.join.isSome = true) (may : d.MayClaim s) :
    claimWaitEnd d s = (d.claiming s.fu.hours, [claimFrame s]) := by
  obtain ⟨-, -, dead, -, single⟩ := id may
  rw [claimWaitEnd_again h ⟨held, dead, single⟩]
  exact tryJoin_claims (d := { d with claimWait := none, rival := none, join := some .byClaim }) rfl may

theorem claimWaitEnd_waits (h : d.claimWait.isSome = true)
    (dead : d.join.isSome = true ∧ s.fli.inputs.busLive = false ∧ s.lc.duplicate = false) (may : ¬ d.MayClaim s) :
    claimWaitEnd d s = quiet { d with claimWait := none, rival := none, join := some .byClaim } := by
  rw [claimWaitEnd_again h dead]
  exact tryJoin_unclaimed (d := { d with claimWait := none, rival := none, join := some .byClaim }) rfl may

/-! ### The join timer (R49, R52) -/

/-- The DU without its join request and its START INTENT (R49, R52, R53). -/
def Du.withdrawn (d : Du) : Du := { d.clearJoin with startIntent := none }

theorem stopIfStarted_stops {sent : Keys} (origin : d.origin = some .dispatch) (unready : sent.ready = false) :
    stopIfStarted d s sent = stopRequest d s := if_pos ⟨origin, unready⟩

theorem stopIfStarted_leaves {sent : Keys} (h : d.origin ≠ some .dispatch ∨ sent.ready = true) :
    stopIfStarted d s sent = quiet d := by
  refine if_neg fun ⟨origin, unready⟩ => ?_
  rcases h with h | h
  · exact h origin
  · simp [h] at unready

theorem joinTimerEnd_void (h : d.joinTimer = none) : joinTimerEnd d s = quiet d := if_pos (by rw [h]; rfl)

/-- The set is treated as for the lapsed intent, and the CC is told. -/
theorem joinTimerEnd_lapses {sent : Keys} {e : Du} {rs : List Report} (h : d.joinTimer.isSome = true)
    (intent : d.startIntent = some sent) (treated : stopIfStarted d.withdrawn s sent = (e, rs)) :
    joinTimerEnd d s = (e, [.cc .joinFail] ++ rs ++ [.du .test]) := by
  have lapsed : joinTimerEnd d s = ((stopIfStarted d.withdrawn s sent).1,
      [.cc .joinFail] ++ (stopIfStarted d.withdrawn s sent).2 ++ [.du .test]) := by
    simp only [joinTimerEnd, Option.isNone_eq_false_iff.mpr h, Bool.false_eq_true, if_false, intent]
    rfl
  rw [lapsed, treated]

/-- No request and no intent is left, and the CC is told. -/
theorem joinTimerEnd_leaves (h : d.joinTimer.isSome = true) (leaves : d.startIntent = none ∨
    d.origin ≠ some .dispatch ∨ ∃ k, d.startIntent = some k ∧ k.ready = true) : joinTimerEnd d s =
      (d.withdrawn, [.cc .joinFail, .du .test]) := by
  cases intent : d.startIntent with
  | none =>
      simp only [joinTimerEnd, Option.isNone_eq_false_iff.mpr h, Bool.false_eq_true, if_false, intent]
      rfl
  | some sent =>
      have stays : d.origin ≠ some .dispatch ∨ sent.ready = true := by simpa [intent] using leaves
      exact joinTimerEnd_lapses h intent (stopIfStarted_leaves (d := d.withdrawn) stays)

/-- A set the lapsed intent started is stopped. -/
theorem joinTimerEnd_stops {sent : Keys} (h : d.joinTimer.isSome = true) (intent : d.startIntent = some sent)
    (unready : sent.ready = false) (origin : d.origin = some .dispatch)
    (state : d.state = .ready ∨ d.state = .warming) : joinTimerEnd d s = (d.withdrawn.stopping,
      [.cc .joinFail, .fli (.command .genset .off)] ++ moveReports d.state .cooling ++ [.du .test]) :=
  joinTimerEnd_lapses h intent ((stopIfStarted_stops (d := d.withdrawn) origin unready).trans
    (stopRequest_cools (d := d.withdrawn) (.inr state.symm)))

/-! ### BUS LIVE and a peer's loss handed to the DU, and the escalation timer -/

theorem duHandle_peerLost_still {n : Nat} (h : s.du.rival ≠ some n ∨ s.du.claimWait = none) :
    duHandle (.peerLost n) s = (s.du, [.du .test]) := by
  have still : (if s.du.rival = some n then claimWaitEnd s.du s else quiet s.du) = quiet s.du := by
    rcases h with other | none
    · exact if_neg other
    · rw [claimWaitEnd_void none, ite_self]
  simp only [duHandle, still]
  rfl

theorem duHandle_peerLost_rival {n : Nat} {rs : List Report} (h : s.du.rival = some n)
    (ended : claimWaitEnd s.du s = (d, rs)) : duHandle (.peerLost n) s = (d, rs ++ [.du .test]) := by
  simp only [duHandle, if_pos h, ended, Act.andThen]

theorem duHandle_busLive {b : Bool} {rs : List Report} (changed : busLiveChange s.du s b = (d, rs)) :
    duHandle (.busLive b) s = (d, rs ++ [.du .test]) := by
  simp only [duHandle, changed, Act.andThen]

theorem tryJoin_escalation (d : Du) (s : State) : (tryJoin d s).1.escalation = d.escalation := by
  unfold tryJoin
  split
  · rfl
  split
  · rfl
  · rfl
  · split <;> rfl

/-- A claim heard leaves the escalation timer at its full length (R56). -/
theorem hearClaim_escalation (d : Du) (s : State) (n : Nat) (keys : Keys) :
    (hearClaim d s n keys).1.escalation = d.escalation := by
  unfold hearClaim
  split
  · split
    · exact tryJoin_escalation _ s
    · rfl
  · rfl
end

/-! ### O40, clause by clause -/

/-- Settles O40: the claim hold, the wait after it and the join timer by their expiries, and a join request by the state
of the set, BUS LIVE and SYNC OK. -/
theorem claimsAndJoinFailures : Obligations.ClaimsAndJoinFailures := by
  refine ⟨fun s up => ⟨fun none => ?_, fun hold => ?_, fun h p ha hf hl => ⟨fun void => ?_, fun own claim behind => ?_,
      fun own claim hold ahead => ?_⟩, ⟨fun none => ?_, fun wait gone => ?_, fun wait dead stays => ?_,
      fun wait dead ready free => ?_, fun ready claim dead free => ?_⟩,
      ⟨fun none => ?_, fun running leaves => ?_, fun k running intent unready origin state => ?_⟩⟩,
    fun s => ⟨fun bus => ?_, fun waits => ⟨fun live => ?_, fun dead => ?_⟩,
      fun ready => ⟨fun live => ?_, fun dead notClosing free => ?_, fun dead stays => ?_⟩, fun live => ?_,
      fun dead => ⟨fun stays => ?_, fun held ready free => ?_, fun held notClosing stays => ?_⟩, ?_, fun none => ?_,
      fun sync ok => ?_, fun n => ⟨fun still => ?_, fun rival wait => ⟨fun gone => ?_, fun dead ready noHold => ?_,
        fun dead stays => ?_⟩⟩, fun n keys => ?_, ?_⟩⟩
  -- the claim hold
  · exact congrArg Host.Outcome.next (run_du_void up (claimHoldEnd_void none))
  · exact congrArg Host.Outcome.next (run_du up (claimHoldEnd_ends hold))
  -- a rival's claim
  · exact (exec_deadbusClaimReceived ha hf hl (hearClaim_void _ _ void)).trans (congrArg _ (handOn_nil _ _))
  · exact (exec_deadbusClaimReceived ha hf hl (hearClaim_behind claim behind)).trans (congrArg _ (handOn_nil _ _))
  · exact exec_deadbusClaimReceived ha hf hl (hearClaim_loses claim hold ahead)
  -- the wait of a lost claim
  · exact congrArg Host.Outcome.next (run_du_void up (claimWaitEnd_void none))
  · exact congrArg Host.Outcome.next (run_du_quiet up (claimWaitEnd_over wait gone))
  · refine congrArg Host.Outcome.next (run_du_quiet up (claimWaitEnd_waits wait dead fun may => ?_))
    obtain ⟨ready, notClosing, -, noHold, -⟩ := may
    exact stays.elim (· ready) (· ⟨notClosing, noHold⟩)
  · obtain ⟨held, busDead, single⟩ := dead
    obtain ⟨notClosing, noHold⟩ := free
    exact congrArg Host.Outcome.next
      (run_du up (claimWaitEnd_claims wait held ⟨ready, notClosing, busDead, noHold, single⟩))
  · obtain ⟨held, busDead, single⟩ := dead
    obtain ⟨notClosing, noHold⟩ := free
    exact deliver_du_of (tryJoin_claims claim ⟨ready, notClosing, busDead, noHold, single⟩)
  -- the join timer
  · exact congrArg Host.Outcome.next (run_du_void up (joinTimerEnd_void none))
  · exact congrArg Host.Outcome.next (run_du up (joinTimerEnd_leaves running leaves))
  · exact congrArg Host.Outcome.next (run_du up (joinTimerEnd_stops running intent unready origin state))
  -- a join request
  · exact deliver_du_of (joinRequest_dropped bus)
  · exact deliver_du_of ((joinRequest_waits waits).trans (by rw [joinMode_live live]; rfl))
  · exact deliver_du_of ((joinRequest_waits waits).trans
      (by rw [joinMode_dead (Bool.eq_false_of_not_eq_true dead)]; rfl))
  · exact deliver_du_of (joinRequest_live ready live)
  · obtain ⟨noHold, single⟩ := free
    exact deliver_du_of (joinRequest_claims ⟨ready, notClosing, Bool.eq_false_of_not_eq_true dead, noHold, single⟩)
  · refine deliver_du_of (joinRequest_unclaimed ready (Bool.eq_false_of_not_eq_true dead) fun may => ?_)
    obtain ⟨-, notClosing, -, noHold, single⟩ := may
    exact stays.elim (fun closing => by simp [notClosing] at closing) (· ⟨noHold, single⟩)
  -- BUS LIVE
  · exact deliver_du_of (duHandle_busLive (busLiveChange_live s.du s))
  · exact deliver_du_of (duHandle_busLive (busLiveChange_stays stays))
  · obtain ⟨ready, notClosing⟩ := ready
    obtain ⟨noHold, single⟩ := free
    exact deliver_du_of (duHandle_busLive ((busLiveChange_dead held notClosing).trans
      (tryJoin_claims (d := { s.du with join := some .byClaim }) rfl
        ⟨ready, notClosing, Bool.eq_false_of_not_eq_true dead, noHold, single⟩)))
  · refine deliver_du_of (duHandle_busLive ((busLiveChange_dead held notClosing).trans
      (tryJoin_unclaimed (d := { s.du with join := some .byClaim }) rfl fun may => stays ?_)))
    obtain ⟨ready, -, -, noHold, single⟩ := may
    exact ⟨⟨ready, notClosing⟩, noHold, single⟩
  -- SYNC OK
  · rfl
  · exact deliver_du_of (m := .syncOk true) (tryJoin_none none)
  · refine deliver_du_of (m := .syncOk true) ((tryJoin_sync sync).trans ?_)
    simp only [ok, and_true]
  -- a peer lost
  · exact deliver_du_of (duHandle_peerLost_still still)
  · refine deliver_du_of (duHandle_peerLost_rival rival (claimWaitEnd_over wait fun dead => gone ?_))
    exact dead.imp_right (·.imp_left fun busDead => by simp [busDead])
  · obtain ⟨held, busDead, single⟩ := dead
    obtain ⟨ready, notClosing⟩ := ready
    exact deliver_du_of (duHandle_peerLost_rival rival
      (claimWaitEnd_claims wait held ⟨ready, notClosing, Bool.eq_false_of_not_eq_true busDead, noHold, single⟩))
  · refine deliver_du_of (duHandle_peerLost_rival rival (claimWaitEnd_waits wait
      (dead.imp_right (·.imp_left fun busDead => Bool.eq_false_of_not_eq_true busDead)) fun may => stays ?_))
    obtain ⟨ready, notClosing, -, noHold, -⟩ := may
    exact ⟨⟨ready, notClosing⟩, noHold⟩
  -- a claim heard, and DUPLICATE
  · exact hearClaim_escalation s.du s n keys
  · rfl

end Sys2Proof.Machine
end

section
/-! SUPPORT. Dead-bus recovery (O39). -/

namespace Sys2Proof.Machine

/-! ### The requests of a recovery (R56) -/

/-- The DU with the requests of a recovery made, before what they do to the set (R56). -/
def Du.requested (d : Du) : Du := { d with recovery := .requested, escalation := none }

/-- A READY set's start and join requests of a recovery taken (R38, R49, R56). -/
def Du.recovered (d : Du) : Du :=
  { d.requested with
    origin := if d.origin = none ∨ d.origin = some .hand then some .recovery else d.origin
    joinTimer := if d.joinTimer.isNone then some 60000 else d.joinTimer }

/-- The dead-bus timer's conditions hold together (R56). -/
def Du.BusDead (d : Du) (s : State) : Prop :=
  s.phase = .running ∧ s.cfg.setFitted = true ∧ s.lc.duplicate = false ∧ s.fli.inputs.busLive = false ∧
    s.pt.figs.peersOnBus = 0 ∧ d.breaker = false

/-- A recovery's join request is to be BY SYNC, as a peer is shown on bus (R56). -/
def Du.Overtaken (d : Du) (s : State) : Prop :=
  d.recovery = .requested ∧ 1 ≤ s.pt.figs.peersOnBus ∧ d.join.isSome = true ∧ d.claimHold = none ∧
    s.fli.closing = false

section
variable {d : Du} {s : State}

theorem recoveryRequests_of {e : Du} {rs : List Report} (started : startRequest d.requested s .recovery = (e, rs)) :
    recoveryRequests d s = ((joinRequest e s).1, rs ++ (joinRequest e s).2) := by
  rw [Du.requested] at started
  simp only [recoveryRequests, started, Act.andThen]

theorem recoveryRequests_stopped (h : d.state = .stopped) : recoveryRequests d s =
    (d.requested.cranking .recovery s.fli.inputs.busLive,
      [.fli (.command .genset .on)] ++ moveReports .stopped .cranking) := by
  rw [recoveryRequests_of (startRequest_stopped (d := d.requested) h), joinRequest_waits (.inr (.inl rfl)), quiet,
    List.append_nil]
  rfl

theorem recoveryRequests_ready (may : d.MayClaim s) :
    recoveryRequests d s = (d.recovered.claiming s.fu.hours, [claimFrame s]) := by
  have absorbed := startRequest_absorbed (d := d.requested) (s := s) (o := .recovery) (.inr (.inr may.1))
  rw [recoveryRequests_of absorbed, joinRequest_claims (by exact may), timed_eq]
  rfl

theorem beginRecovery_noPart (h : ownEligible d s = false) :
    beginRecovery d s = quiet { d with recovery := .noPart } := by
  simp [beginRecovery, h]

theorem beginRecovery_waits (h : ownEligible d s = true) (place : 2 ≤ startPlace d s) : beginRecovery d s =
    quiet { d with recovery := .escalating, escalation := some ((startPlace d s - 1) * 20000) } := by
  have behind : startPlace d s ≠ 1 := by omega
  simp [beginRecovery, h, behind]

theorem beginRecovery_first (h : ownEligible d s = true) (place : startPlace d s = 1) :
    beginRecovery d s = recoveryRequests d s := by
  simp [beginRecovery, h, place]

/-! ### The two timers -/

theorem deadBusEnd_void (h : d.deadBus = none) : deadBusEnd d s = quiet d := if_pos (by rw [h]; rfl)

theorem deadBusEnd_begins (h : d.deadBus.isSome = true) :
    deadBusEnd d s = beginRecovery { d with deadBus := none } s :=
  if_neg (by rw [Option.isNone_eq_false_iff.mpr h]; decide)

theorem escalationEnd_void (h : d.escalation = none) : escalationEnd d s = quiet d := if_pos (by rw [h]; rfl)

theorem escalationEnd_requests (h : d.escalation.isSome = true) : escalationEnd d s = recoveryRequests d s :=
  if_neg (by rw [Option.isNone_eq_false_iff.mpr h]; decide)

/-! ### The tests of the recovery -/

theorem deadBusHolds_iff : deadBusHolds d s = true ↔ d.BusDead s := by
  simp [deadBusHolds, Du.BusDead, State.isRunning, and_assoc]

theorem recoveryOvertaken_iff : recoveryOvertaken d s = true ↔ d.Overtaken s := by
  simp [recoveryOvertaken, Du.Overtaken, and_assoc, Nat.one_le_iff_ne_zero]

theorem testDeadBus_starts (h : d.BusDead s) (none : d.recovery = .none) :
    testDeadBus d s = quiet { d with deadBus := some 2000 } := by
  simp [testDeadBus, deadBusHolds_iff.mpr h, none]

theorem testDeadBus_underWay (h : d.BusDead s) (under : d.recovery = .escalating ∨ d.recovery = .requested) :
    testDeadBus d s = quiet d := by
  rcases under with under | under <;> simp [testDeadBus, deadBusHolds_iff.mpr h, under]

theorem testDeadBus_stays (h : d.BusDead s) (noPart : d.recovery = .noPart) (out : ownEligible d s = false) :
    testDeadBus d s = quiet d := by
  simp [testDeadBus, deadBusHolds_iff.mpr h, noPart, out]

theorem testDeadBus_begins (h : d.BusDead s) (noPart : d.recovery = .noPart) (eligible : ownEligible d s = true) :
    testDeadBus d s = beginRecovery d s := by
  simp [testDeadBus, deadBusHolds_iff.mpr h, noPart, eligible]

theorem testDeadBus_first (h : d.BusDead s) (noPart : d.recovery = .noPart) (eligible : ownEligible d s = true)
    (first : startPlace d s = 1) : testDeadBus d s = recoveryRequests d s :=
  (testDeadBus_begins h noPart eligible).trans (beginRecovery_first eligible first)

theorem testDeadBus_over (h : ¬ d.BusDead s) : testDeadBus d s = endRecovery d s := by
  have off : deadBusHolds d s = false := by rwa [← Bool.not_eq_true, deadBusHolds_iff]
  simp [testDeadBus, off]

theorem endRecovery_ends (h : ¬ d.Overtaken s) :
    endRecovery d s = quiet { d with deadBus := none, recovery := .none, escalation := none } :=
  if_neg (mt recoveryOvertaken_iff.mp h)

theorem endRecovery_syncs (h : d.Overtaken s) : endRecovery d s =
    ({ d with deadBus := none, recovery := .none, escalation := none, join := some .bySync },
      if d.state = .ready ∧ s.fli.inputs.syncOk = true then [.fli (.command .breaker .on)] else []) := by
  obtain ⟨-, -, -, -, notClosing⟩ := id h
  refine (if_pos (recoveryOvertaken_iff.mpr h)).trans ((tryJoin_sync rfl).trans ?_)
  simp only [notClosing, true_and]

theorem testDwells_eq (d : Du) (s : State) : ∃ a b, testDwells d s = { d with startDwell := a, stopDwell := b } := by
  unfold testDwells
  split
  · exact ⟨_, _, rfl⟩
  · exact ⟨_, _, rfl⟩
end

/-! ### O39, clause by clause -/

/-- Settles O39: the two timers by what a recovery begins with, and the DU's tests on a dead bus and off it. -/
theorem deadBusRecovery : Obligations.DeadBusRecovery := by
  intro s up d requested cranked claimed free
  have claims (ready : s.du.state = .ready) (h : free) : s.du.MayClaim s := by
    obtain ⟨notClosing, busDead, noHold, single⟩ := h
    exact ⟨ready, notClosing, busDead, noHold, single⟩
  refine ⟨fun none => ?_, fun running => ⟨fun out => ?_, fun eligible place => ?_, fun eligible first stopped => ?_,
      fun eligible first ready h => ?_⟩, fun none => ?_, fun running => ⟨fun stopped => ?_, fun ready h => ?_⟩, ?_⟩
  · exact congrArg Host.Outcome.next (run_du_void up (deadBusEnd_void none))
  · exact congrArg Host.Outcome.next
      (run_du_quiet up ((deadBusEnd_begins running).trans (beginRecovery_noPart (d := d) out)))
  · exact congrArg Host.Outcome.next
      (run_du_quiet up ((deadBusEnd_begins running).trans (beginRecovery_waits (d := d) eligible place)))
  · exact congrArg Host.Outcome.next (run_du up ((deadBusEnd_begins running).trans
      ((beginRecovery_first (d := d) eligible first).trans (recoveryRequests_stopped (d := d) stopped))))
  · exact congrArg Host.Outcome.next (run_du up ((deadBusEnd_begins running).trans
      ((beginRecovery_first (d := d) eligible first).trans (recoveryRequests_ready (d := d) (claims ready h)))))
  · exact congrArg Host.Outcome.next (run_du_void up (escalationEnd_void none))
  · exact congrArg Host.Outcome.next
      (run_du up ((escalationEnd_requests running).trans (recoveryRequests_stopped stopped)))
  · exact congrArg Host.Outcome.next (run_du (m := .escalation) up
      ((escalationEnd_requests running).trans (recoveryRequests_ready (claims ready h))))
  -- the tests
  · intro tested x becomes ended dead overtaken
    obtain ⟨a, b, eq⟩ : ∃ a b, tested = { s.du with startDwell := a, stopDwell := b } := testDwells_eq s.du s
    have given {e : Du} {rs : List Report} (h : testDeadBus tested s = (e, rs)) : x = (becomes e, rs) :=
      deliver_du_of (m := .test) h
    let e : Du := { s.du with startDwell := a, stopDwell := b }
    clear_value x tested
    subst eq
    refine ⟨⟨a, b, rfl⟩, fun h none => ?_, fun h under => ?_,
      fun h noPart => ⟨fun out => ?_, fun eligible place => ?_, fun eligible first stopped => ?_,
        fun eligible first ready notClosing noHold => ?_⟩, fun gone still => ?_, fun gone taken => ?_⟩
    · exact given (testDeadBus_starts (d := e) h none)
    · exact given (testDeadBus_underWay (d := e) h under)
    · exact given (testDeadBus_stays (d := e) h noPart out)
    · exact given ((testDeadBus_begins (d := e) h noPart eligible).trans (beginRecovery_waits eligible place))
    · obtain ⟨-, -, -, busDead, -⟩ := id h
      refine given ((testDeadBus_first (d := e) h noPart eligible first).trans
        ((recoveryRequests_stopped (d := e) stopped).trans ?_))
      rw [busDead]
      rfl
    · obtain ⟨-, -, single, busDead, -⟩ := id h
      exact given ((testDeadBus_first (d := e) h noPart eligible first).trans
        (recoveryRequests_ready ⟨ready, notClosing, busDead, noHold, single⟩))
    · exact given ((testDeadBus_over (d := e) gone).trans (endRecovery_ends still))
    · exact given ((testDeadBus_over (d := e) gone).trans (endRecovery_syncs taken))

end Sys2Proof.Machine
end

section
/-! SUPPORT. The dwells, the ranks, and the start and stop contests (O37, O38). -/

namespace Sys2Proof.Machine

/-! ### The dwells (R50, R54) -/

section
variable {d : Du} {s : State}

theorem startNeed_iff : startNeed s = true ↔
    s.cfg.setFitted = true ∧ s.cfg.startThr * s.pt.figs.capacity < s.pt.figs.load * 100 := by
  simp [startNeed]

theorem startHeld_iff : startHeld d s = true ↔ s.pt.figs.handoverInGroup = true ∨
    (d.state = .cranking ∨ d.state = .warming) ∨
    (∃ e ∈ s.pt.entries, e.fields.setState = .cranking ∨ e.fields.setState = .warming) ∨
    d.startIntent.isSome = true := by
  simp only [startHeld, Bool.or_eq_true, List.any_eq_true, comingUp_iff, or_assoc]

theorem stopCandidate_iff {rating : Nat} : stopCandidate s rating = true ↔ 2 ≤ s.pt.figs.carrying ∧
    s.pt.figs.load * 100 < s.cfg.stopThr * (s.pt.figs.capacity - rating) := by
  simp [stopCandidate]

theorem stopNeed_iff : stopNeed d s = true ↔ d.state = .onbus ∧ 2 ≤ s.pt.figs.carrying ∧
    s.pt.figs.load * 100 < s.cfg.stopThr * (s.pt.figs.capacity - s.cfg.rating) := by
  simp only [stopNeed, Bool.and_eq_true, beq_iff_eq, stopCandidate_iff]

theorem stopHeld_iff : stopHeld d s = true ↔
    s.pt.figs.handoverInGroup = true ∨ 0 < s.pt.figs.releasing ∨ d.stopIntent.isSome = true := by
  simp [stopHeld, or_assoc]

/-- A dwell timer whose need holds: begun at its full length or going on with what it held, running or held. -/
theorem nextDwell_needed (cur : Dwell) (held : Bool) (ms : Nat) :
    (cur = .off → (held = true → nextDwell cur true held ms = .held ms) ∧
      (¬ held = true → nextDwell cur true held ms = .running ms)) ∧
    (∀ n, cur = .running n ∨ cur = .held n → (held = true → nextDwell cur true held ms = .held n) ∧
      (¬ held = true → nextDwell cur true held ms = .running n)) := by
  refine ⟨?_, fun n => ?_⟩
  · rintro rfl
    exact ⟨fun h => if_pos h, fun h => if_neg h⟩
  · rintro (rfl | rfl)
    · exact ⟨fun h => if_pos h, fun h => if_neg h⟩
    · exact ⟨fun h => if_pos h, fun h => if_neg h⟩

/-- The dwell timers may run: after the end of start-up and without DUPLICATE (R45, R60). -/
def DwellsRun (s : State) : Prop := s.isRunning = true ∧ s.lc.duplicate = false

theorem dwellsRun_iff : (s.isRunning && !s.lc.duplicate) = true ↔ DwellsRun s := by
  simp [DwellsRun]

theorem not_dwellsRun_iff : ¬ DwellsRun s ↔ s.isRunning = false ∨ s.lc.duplicate = true := by
  simp [DwellsRun, imp_iff_not_or]

theorem testDwells_runs (h : DwellsRun s) : testDwells d s =
    { d with startDwell := nextDwell d.startDwell (startNeed s) (startHeld d s) (s.cfg.startDwell * 1000)
             stopDwell := nextDwell d.stopDwell (stopNeed d s) (stopHeld d s) (s.cfg.stopDwell * 1000) } :=
  if_pos (dwellsRun_iff.mpr h)

theorem testDwells_rests (h : ¬ DwellsRun s) : testDwells d s = { d with startDwell := .off, stopDwell := .off } :=
  if_neg (mt dwellsRun_iff.mp h)

theorem startDwell_needed (run : DwellsRun s) (need : startNeed s = true) : (testDwells d s).startDwell =
    nextDwell d.startDwell true (startHeld d s) (s.cfg.startDwell * 1000) := by
  rw [testDwells_runs run, need]

theorem stopDwell_needed (run : DwellsRun s) (need : stopNeed d s = true) : (testDwells d s).stopDwell =
    nextDwell d.stopDwell true (stopHeld d s) (s.cfg.stopDwell * 1000) := by
  rw [testDwells_runs run, need]

theorem startDwell_off (h : ¬ DwellsRun s ∨ startNeed s = false) : (testDwells d s).startDwell = .off := by
  by_cases run : DwellsRun s
  · rw [testDwells_runs run, h.resolve_left (not_not.mpr run)]
    rfl
  · rw [testDwells_rests run]

theorem stopDwell_off (h : ¬ DwellsRun s ∨ stopNeed d s = false) : (testDwells d s).stopDwell = .off := by
  by_cases run : DwellsRun s
  · rw [testDwells_runs run, h.resolve_left (not_not.mpr run)]
    rfl
  · rw [testDwells_rests run]

/-! ### The tests of the recovery leave the dwells -/

/-- The two dwell timers. -/
def Du.dwells (d : Du) : Dwell × Dwell := (d.startDwell, d.stopDwell)

theorem tryJoin_dwells (d : Du) (s : State) : (tryJoin d s).1.dwells = d.dwells := by
  unfold tryJoin
  split
  · rfl
  split
  · rfl
  · rfl
  · split <;> rfl

theorem joinRequest_dwells (d : Du) (s : State) : (joinRequest d s).1.dwells = d.dwells := by
  unfold joinRequest
  split
  iterate 3 rfl
  all_goals exact tryJoin_dwells _ s

theorem startRequest_dwells (d : Du) (s : State) (o : Origin) : (startRequest d s o).1.dwells = d.dwells := by
  unfold startRequest
  split
  case h_5 =>
    split
    · dsimp only
      split <;> rfl
    · rfl
  all_goals rfl

theorem recoveryRequests_dwells (d : Du) (s : State) : (recoveryRequests d s).1.dwells = d.dwells :=
  (joinRequest_dwells _ s).trans (startRequest_dwells _ s _)

theorem testDeadBus_dwells (d : Du) (s : State) : (testDeadBus d s).1.dwells = d.dwells := by
  have begins : (beginRecovery d s).1.dwells = d.dwells := by
    unfold beginRecovery
    split
    · rfl
    split
    · exact recoveryRequests_dwells d s
    · rfl
  have ends : (endRecovery d s).1.dwells = d.dwells := by
    unfold endRecovery
    dsimp only
    split
    · exact tryJoin_dwells _ s
    · rfl
  unfold testDeadBus
  split
  · exact ends
  split
  · rfl
  · split
    · exact begins
    · rfl
  · rfl
  · rfl

theorem deliver_test_dwells (s : State) : (deliver (.du .test) s).1.du.dwells = (testDwells s.du s).dwells :=
  testDeadBus_dwells _ s

theorem deliver_test_startDwell (s : State) :
    (deliver (.du .test) s).1.du.startDwell = (testDwells s.du s).startDwell :=
  congrArg Prod.fst (deliver_test_dwells s)

theorem deliver_test_stopDwell (s : State) :
    (deliver (.du .test) s).1.du.stopDwell = (testDwells s.du s).stopDwell :=
  congrArg Prod.snd (deliver_test_dwells s)

/-! ### The ranks (R51, R55) -/

theorem ownEligible_iff : ownEligible d s = true ↔ s.cfg.setFitted = true ∧ (d.state = .stopped ∨ d.state = .ready) ∧
    d.breaker = false ∧ s.fu.threshold = .normal ∧ s.cc.state = .idle := by
  simp [ownEligible, and_assoc]

theorem peerEligible_iff {f : PeerFields} : peerEligible f = true ↔ f.setFitted = true ∧
    (f.setState = .stopped ∨ f.setState = .ready) ∧ f.onBus = false ∧ f.threshold = .normal ∧ f.handover = .idle := by
  simp [peerEligible, and_assoc]

theorem startAhead_iff {k₁ k₂ : Keys} {n₁ n₂ : Nat} : startAhead k₁ n₁ k₂ n₂ = true ↔
    (k₁.ready = true ∧ ¬ k₂.ready = true) ∨ ((k₁.ready = true ↔ k₂.ready = true) ∧
      (k₂.hours < k₁.hours ∨ (k₁.hours = k₂.hours ∧ n₁ < n₂))) := by
  unfold startAhead
  split
  next unlike =>
    have contrary : k₁.ready = !k₂.ready := Bool.eq_not_of_ne (bne_iff_ne.mp unlike)
    cases own : k₂.ready <;> simp [contrary, own]
  next like =>
    rw [bne_iff_ne, not_not] at like
    split
    next other =>
      rw [bne_iff_ne] at other
      simp [like, other]
    next same =>
      rw [bne_iff_ne, not_not] at same
      simp [like, same]

theorem stopAhead_iff {h₁ n₁ h₂ n₂ : Nat} :
    stopAhead h₁ n₁ h₂ n₂ = true ↔ h₁ < h₂ ∨ (h₁ = h₂ ∧ n₂ < n₁) := by
  unfold stopAhead
  split
  next other =>
    rw [bne_iff_ne] at other
    simp [other]
  next same =>
    rw [bne_iff_ne, not_not] at same
    simp [same]

/-- The eligible standby of a peer stands ahead of the own set in start rank. -/
def standsAhead (d : Du) (s : State) (e : PeerEntry) : Bool :=
  peerEligible e.fields && startAhead ⟨e.fields.setState == .ready, e.fields.hours⟩ e.station
    ⟨d.state == .ready, s.fu.hours⟩ s.cfg.station

theorem startPlace_eq (d : Du) (s : State) : startPlace d s = (s.pt.entries.filter (standsAhead d s)).length + 1 :=
  Nat.add_comm _ _

theorem standsAhead_iff {e : PeerEntry} : standsAhead d s e = true ↔ peerEligible e.fields = true ∧
    ((e.fields.setState = .ready ∧ ¬ d.state = .ready) ∨
      ((e.fields.setState = .ready ↔ d.state = .ready) ∧ (s.fu.hours < e.fields.hours ∨
        (e.fields.hours = s.fu.hours ∧ e.station < s.cfg.station)))) := by
  simp only [standsAhead, Bool.and_eq_true, startAhead_iff, beq_iff_eq]

theorem startPlace_first : startPlace d s = 1 ↔ ∀ e ∈ s.pt.entries, ¬ standsAhead d s e = true := by
  rw [startPlace_eq, Nat.add_eq_right, List.length_eq_zero_iff, List.filter_eq_nil_iff]

theorem length_lt_startPlace {l : List PeerEntry} (sub : l.Sublist s.pt.entries)
    (ahead : ∀ e ∈ l, standsAhead d s e = true) : l.length < startPlace d s := by
  rw [startPlace_eq, Nat.lt_succ_iff, ← List.filter_eq_self.mpr ahead]
  exact (sub.filter _).length_le

theorem firstToStop_iff : firstToStop s = true ↔ stopCandidate s s.cfg.rating = true ∧
    ∀ e ∈ s.pt.entries, e.fields.onBus = true → e.fields.setState ≠ .rampdown →
      stopCandidate s e.fields.rating = true →
        ¬ stopAhead e.fields.hours e.station s.fu.hours s.cfg.station = true := by
  simp [firstToStop]

/-! ### The start contest (R52, R53) -/

/-- The station is first among the eligible standbys, and no DUPLICATE stands (R52). -/
def Du.FirstToStart (d : Du) (s : State) : Prop :=
  s.lc.duplicate = false ∧ ownEligible d s = true ∧ startPlace d s = 1

/-- The DU with its START INTENT outstanding, its start dwell over (R52). -/
def Du.intending (d : Du) (s : State) : Du :=
  { d with startDwell := .off, startIntent := some ⟨d.state == .ready, s.fu.hours⟩ }

/-- The START INTENT sent (R52). -/
def intentFrame (s : State) (ready : Bool) : Report :=
  duFrame s .startIntent (flagByte ready :: beBytes 2 s.fu.hours)

theorem startDwellEnd_void (h : ∀ ms, d.startDwell ≠ .running ms) : startDwellEnd d s = quiet d := by
  cases dwell : d.startDwell with
  | off => simp only [startDwellEnd, dwell]
  | running ms => exact absurd dwell (h ms)
  | held ms => simp only [startDwellEnd, dwell]

theorem Du.firstToStart_iff :
    (!s.lc.duplicate && ownEligible d s && startPlace d s == 1) = true ↔ d.FirstToStart s := by
  simp [Du.FirstToStart, and_assoc]

theorem startDwellEnd_passes {ms : Nat} (h : d.startDwell = .running ms) (first : ¬ d.FirstToStart s) :
    startDwellEnd d s = ({ d with startDwell := .off }, [.du .test]) := by
  simp only [startDwellEnd, h, if_neg (mt Du.firstToStart_iff.mp first)]
  rfl

/-- The start request of a set in STOPPED, and the join request (R52). -/
def Du.contestRequests (d : Du) (s : State) : Act Du :=
  (if d.state = .stopped then startRequest (d.intending s) s .dispatch else quiet (d.intending s)).andThen
    fun e => joinRequest e s

theorem startDwellEnd_first {ms : Nat} {e : Du} {rs : List Report} (h : d.startDwell = .running ms)
    (first : d.FirstToStart s) (requested : d.contestRequests s = (e, rs)) :
    startDwellEnd d s = (e, intentFrame s (d.state == .ready) :: rs ++ [.du .test]) := by
  have contested : startDwellEnd d s = ((d.contestRequests s).1,
      intentFrame s (d.state == .ready) :: (d.contestRequests s).2 ++ [.du .test]) := by
    simp only [startDwellEnd, h, if_pos (Du.firstToStart_iff.mpr first)]
    rfl
  rw [contested, requested]

theorem contestRequests_stopped (h : d.state = .stopped) : d.contestRequests s =
    ((d.intending s).cranking .dispatch s.fli.inputs.busLive,
      .fli (.command .genset .on) :: moveReports .stopped .cranking) := by
  rw [Du.contestRequests, if_pos h, startRequest_stopped (d := d.intending s) h, Act.andThen,
    joinRequest_waits (.inr (.inl rfl)), quiet, List.append_nil]
  rfl

theorem contestRequests_ready (h : d.state = .ready) : d.contestRequests s = joinRequest (d.intending s) s := by
  rw [Du.contestRequests, if_neg (by simp [h])]
  rfl

theorem hearStartIntent_void (n : Nat) (keys : Keys) (h : d.startIntent = none) :
    hearStartIntent d s n keys = quiet d := by
  simp only [hearStartIntent, h]

theorem hearStartIntent_stands {n : Nat} {keys sent : Keys} (h : d.startIntent = some sent)
    (stands : d.state = .onbus ∨ startAhead keys n sent s.cfg.station = false) :
    hearStartIntent d s n keys = quiet d := by
  simp [hearStartIntent, h, stands]

/-- A rival ahead: the intent is withdrawn, and the set treated as for it. -/
theorem hearStartIntent_withdraws {n : Nat} {keys sent : Keys} {e : Du} {rs : List Report}
    (h : d.startIntent = some sent) (off : d.state ≠ .onbus) (ahead : startAhead keys n sent s.cfg.station = true)
    (treated : stopIfStarted d.withdrawn s sent = (e, rs)) :
    hearStartIntent d s n keys = (e, rs ++ [.du .test]) := by
  have behind : ¬ (d.state = .onbus ∨ (!startAhead keys n sent s.cfg.station) = true) := by simp [off, ahead]
  rw [Du.withdrawn] at treated
  simp only [hearStartIntent, h, if_neg behind, treated, Act.andThen]

/-! ### The stop contest (R55) -/

/-- The set is the first stop candidate, and no DUPLICATE stands (R55). -/
def Du.FirstToStop (d : Du) (s : State) : Prop := s.lc.duplicate = false ∧ d.state = .onbus ∧ firstToStop s = true

theorem Du.firstToStop_iff :
    (!s.lc.duplicate && d.state == .onbus && firstToStop s) = true ↔ d.FirstToStop s := by
  simp [Du.FirstToStop, and_assoc]

theorem stopDwellEnd_void (h : ∀ ms, d.stopDwell ≠ .running ms) : stopDwellEnd d s = quiet d := by
  cases dwell : d.stopDwell with
  | off => simp only [stopDwellEnd, dwell]
  | running ms => exact absurd dwell (h ms)
  | held ms => simp only [stopDwellEnd, dwell]

theorem stopDwellEnd_passes {ms : Nat} (h : d.stopDwell = .running ms) (first : ¬ d.FirstToStop s) :
    stopDwellEnd d s = ({ d with stopDwell := .off }, [.du .test]) := by
  simp only [stopDwellEnd, h, if_neg (mt Du.firstToStop_iff.mp first)]
  rfl

theorem stopDwellEnd_first {ms : Nat} (h : d.stopDwell = .running ms) (first : d.FirstToStop s) : stopDwellEnd d s =
    ({ d with stopDwell := .off, stopIntent := some s.fu.hours, intentHold := some 3000 },
      [duFrame s .stopIntent (beBytes 2 s.fu.hours), .du .test]) := by
  simp only [stopDwellEnd, h, if_pos (Du.firstToStop_iff.mpr first)]
  rfl

theorem hearStopIntent_void (n hours : Nat) (h : d.stopIntent = none ∨ d.intentHold = none) :
    hearStopIntent d s n hours = quiet d := by
  cases intent : d.stopIntent with
  | none => simp only [hearStopIntent, intent]
  | some own =>
      have none : d.intentHold = none := h.resolve_left (by simp [intent])
      simp [hearStopIntent, intent, none]

theorem hearStopIntent_behind {n hours own : Nat} (h : d.stopIntent = some own)
    (behind : stopAhead hours n own s.cfg.station = false) : hearStopIntent d s n hours = quiet d := by
  simp [hearStopIntent, h, behind]

theorem hearStopIntent_loses {n hours own : Nat} (h : d.stopIntent = some own) (hold : d.intentHold.isSome = true)
    (ahead : stopAhead hours n own s.cfg.station = true) : hearStopIntent d s n hours =
      ({ d with stopIntent := none, intentHold := none }, [.du .test]) := by
  simp only [hearStopIntent, h, hold, ahead, Bool.and_self, if_true]

theorem intentHoldEnd_void (h : d.intentHold = none) : intentHoldEnd d s = quiet d := if_pos (by rw [h]; rfl)

theorem intentHoldEnd_lapses (h : d.intentHold.isSome = true) (few : d.state ≠ .onbus ∨ s.pt.figs.carrying < 2) :
    intentHoldEnd d s = ({ d with intentHold := none, stopIntent := none }, [.du .test]) := by
  have stays : ¬ (d.state = .onbus ∧ 2 ≤ s.pt.figs.carrying) := fun ⟨bus, two⟩ => few.elim (· bus) (by omega)
  simp only [intentHoldEnd, Option.isNone_eq_false_iff.mpr h, Bool.false_eq_true, if_false, if_neg stays]

theorem intentHoldEnd_ramps (h : d.intentHold.isSome = true) (bus : d.state = .onbus)
    (two : 2 ≤ s.pt.figs.carrying) : intentHoldEnd d s = enterRampdown { d with intentHold := none } s := by
  simp only [intentHoldEnd, Option.isNone_eq_false_iff.mpr h, Bool.false_eq_true, if_false, if_pos (And.intro bus two)]
end

section
variable {s : State} {h : Header} {p : List Byte} {d : Du} {rs : List Report}

theorem exec_startIntentReceived (ha : Accepts s h) (hf : FromStation h) (hl : p.length = 3)
    (hm : hearStartIntent s.du s.heard h.sender.toNat (keysOf p) = (d, rs)) :
    exec (.startIntentReceived h p) s = .next (State.handOn { s.heard with du := d } 2 rs) :=
  congrArg Host.Outcome.next (run_frame_du ha hf rfl (beq_iff_eq.mpr hl) rfl hm)

theorem exec_stopIntentReceived (ha : Accepts s h) (hf : FromStation h) (hl : p.length = 2)
    (hm : hearStopIntent s.du s.heard h.sender.toNat (fieldAt p 0 2) = (d, rs)) :
    exec (.stopIntentReceived h p) s = .next (State.handOn { s.heard with du := d } 2 rs) :=
  congrArg Host.Outcome.next (run_frame_du ha hf rfl (beq_iff_eq.mpr hl) rfl hm)
end

/-! ### O37 and O38, clause by clause -/

/-- Settles O37: the dwell by its need and hold, the own place by the standbys ahead, and the contest
by who is first. -/
theorem startContests : Obligations.StartContests := by
  refine ⟨fun s => ?_, fun s up => ?_⟩
  · intro d upState need held eligible standby ownReady before
    have needed : startNeed s = true ↔ need := startNeed_iff
    have holds : startHeld s.du s = true ↔ held := startHeld_iff
    have ahead (e : PeerEntry) : standsAhead s.du s e = true ↔ standby e ∧ before e :=
      standsAhead_iff.trans (and_congr_left' peerEligible_iff)
    have dwell : d.startDwell = (testDwells s.du s).startDwell := deliver_test_startDwell s
    refine ⟨fun h => ?_, fun run single h => ?_, ownEligible_iff, fun e => peerEligible_iff, ?_, fun l sub all => ?_,
      ⟨s.pt.entries.filter (standsAhead s.du s), List.filter_sublist, fun e he => (ahead e).mp (List.of_mem_filter he),
        startPlace_eq s.du s⟩⟩
    · rw [← or_assoc, ← not_dwellsRun_iff, ← needed, Bool.not_eq_true] at h
      exact dwell.trans (startDwell_off h)
    · rw [dwell, startDwell_needed ⟨run, single⟩ (needed.mpr h), ← holds]
      exact nextDwell_needed _ _ _
    · simp only [startPlace_first, ahead, not_and]
    · exact length_lt_startPlace sub fun e he => (ahead e).mpr (all e he)
  · intro intent first d
    refine ⟨fun still => ?_, fun ms running out => ?_, fun ms running h state => ?_,
      fun ms running h state notClosing => ⟨fun live => ?_, fun dead noHold => ?_⟩,
      fun h p ha hf hl => ⟨fun none => ?_, fun sent out stands => ?_, fun sent out off won leaves => ?_,
        fun sent out turns won origin unready => ?_, fun sent out state still won origin unready => ?_⟩⟩
    · exact congrArg Host.Outcome.next (run_du_void up (startDwellEnd_void still))
    · exact congrArg Host.Outcome.next (run_du up (startDwellEnd_passes running out))
    · have unready : (s.du.state == .ready) = false := by simp [state]
      have ended := startDwellEnd_first running h (contestRequests_stopped state)
      rw [Du.intending, unready] at ended
      exact congrArg Host.Outcome.next (run_du up ended)
    · have ready : (s.du.state == .ready) = true := by simp [state]
      have ended := startDwellEnd_first running h ((contestRequests_ready state).trans (joinRequest_live state live))
      rw [timed_eq, Du.intending, ready] at ended
      simp only [notClosing, true_and] at ended
      exact congrArg Host.Outcome.next (run_du (m := .startDwell) up ended)
    · have ready : (s.du.state == .ready) = true := by simp [state]
      have ended := startDwellEnd_first running h
        ((contestRequests_ready state).trans (joinRequest_claims ⟨state, notClosing, dead, noHold, h.1⟩))
      rw [timed_eq, Du.intending, ready] at ended
      exact congrArg Host.Outcome.next (run_du (m := .startDwell) up ended)
    -- a rival's intent
    · exact (exec_startIntentReceived ha hf hl (hearStartIntent_void _ _ none)).trans (congrArg _ (handOn_nil _ _))
    · exact (exec_startIntentReceived ha hf hl (hearStartIntent_stands out stands)).trans
        (congrArg _ (handOn_nil _ _))
    · exact exec_startIntentReceived ha hf hl
        (hearStartIntent_withdraws out off won (stopIfStarted_leaves (d := s.du.withdrawn) leaves))
    · have off : s.du.state ≠ .onbus := by rcases turns with h | h | h <;> simp [h]
      exact exec_startIntentReceived ha hf hl (hearStartIntent_withdraws out off won
        ((stopIfStarted_stops (d := s.du.withdrawn) origin unready).trans
          (stopRequest_cools (d := s.du.withdrawn) (s := s.heard) (or_rotate.mpr turns))))
    · have off : s.du.state ≠ .onbus := by simp [state]
      exact exec_startIntentReceived ha hf hl (hearStartIntent_withdraws out off won
        ((stopIfStarted_stops (d := s.du.withdrawn) origin unready).trans
          (stopRequest_stops (d := s.du.withdrawn) (s := s.heard) state still)))

/-- Settles O38: the dwell by its need and hold, the stop rank by the candidates ahead, and the contest
by who is first. -/
theorem stopContests : Obligations.StopContests := by
  refine ⟨fun s => ?_, fun s up => ?_⟩
  · intro d low need held before
    have needed : stopNeed s.du s = true ↔ need := stopNeed_iff
    have holds : stopHeld s.du s = true ↔ held := stopHeld_iff
    have dwell : d.stopDwell = (testDwells s.du s).stopDwell := deliver_test_stopDwell s
    refine ⟨fun h => ?_, fun run single h => ?_, ?_⟩
    · rw [← or_assoc, ← not_dwellsRun_iff, ← needed, Bool.not_eq_true] at h
      exact dwell.trans (stopDwell_off h)
    · rw [dwell, stopDwell_needed ⟨run, single⟩ (needed.mpr h), ← holds]
      exact nextDwell_needed _ _ _
    · simp only [firstToStop_iff, stopCandidate_iff, stopAhead_iff]
      exact Iff.rfl
  · intro first d
    refine ⟨fun still => ?_, fun ms running out => ?_, fun ms running h => ?_,
      fun h p ha hf hl => ⟨fun void => ?_, fun own sent behind => ?_, fun own sent hold ahead => ?_⟩, fun none => ?_,
      fun hold few => ?_, fun hold bus two => ⟨fun high => ?_, fun low => ?_⟩⟩
    · exact congrArg Host.Outcome.next (run_du_void up (stopDwellEnd_void still))
    · exact congrArg Host.Outcome.next (run_du up (stopDwellEnd_passes running out))
    · exact congrArg Host.Outcome.next (run_du up (stopDwellEnd_first running h))
    -- a rival's intent
    · exact (exec_stopIntentReceived ha hf hl (hearStopIntent_void _ _ void)).trans (congrArg _ (handOn_nil _ _))
    · exact (exec_stopIntentReceived ha hf hl (hearStopIntent_behind sent behind)).trans
        (congrArg _ (handOn_nil _ _))
    · exact exec_stopIntentReceived ha hf hl (hearStopIntent_loses sent hold ahead)
    -- the hold's end
    · exact congrArg Host.Outcome.next (run_du_void up (intentHoldEnd_void none))
    · exact congrArg Host.Outcome.next (run_du up (intentHoldEnd_lapses hold few))
    · have ramped := (intentHoldEnd_ramps hold bus two).trans (enterRampdown_ramps high)
      exact congrArg Host.Outcome.next (run_du up (bus ▸ ramped))
    · have ramped := (intentHoldEnd_ramps hold bus two).trans (enterRampdown_low low)
      exact congrArg Host.Outcome.next (run_du up (bus ▸ ramped))

end Sys2Proof.Machine
end

section
/-! SUPPORT. Step 6 of a start: the set and the feeders rebuilt (O8). -/

namespace Sys2Proof.Machine

/-! ### The TRIP of a set rebuilt into FAULT -/

/-- A TRIP with the breaker closed is confirmed to nobody at once. -/
theorem fliCommand_trip_told {x : Fli} (closed : x.inputs.brk = true) : (fliCommand x .breaker .off).2 = [] := by
  have away : feedback x.inputs .breaker = some true := congrArg some closed
  unfold fliCommand
  dsimp only
  split
  · split <;> rfl
  · split
    · rfl
    · rw [fliIssue_away away (by decide)]
      rfl

theorem fliCommand_trip_idle {x : Fli} (closed : x.inputs.brk = true) (idle : x.breaker = Dev.idle) :
    (fliCommand x .breaker .off).1 = { x with breaker := ⟨some .off, none, some .off⟩ } := by
  have away : feedback x.inputs .breaker = some true := congrArg some closed
  have issued : fliCommand x .breaker .off = fliIssue x .breaker .off := by
    simp only [fliCommand, Fli.dev, idle, Dev.idle]
    rfl
  rw [issued, fliIssue_away away (by decide)]
  rfl

/-- The group figures of step 6, from the own values alone. -/
def rebuiltFigures (s : State) : Figures := figuresOf { s with du := (duRebuild s).1, sc := scRebuild s } []

/-- Step 6: the set, the feeders and the group figures as rebuilt, the breaker tripped at a closed FAULT. -/
theorem startStep_rebuild (inp : StartInputs) (s : State) : startStep 6 inp s =
    { s with
      du := (duRebuild s).1, sc := scRebuild s, pt := { s.pt with figs := rebuiltFigures s }
      fli := if (duRebuild s).1.state = .fault ∧ s.fli.inputs.brk = true then (fliCommand s.fli .breaker .off).1
             else s.fli } := by
  by_cases trip : (duRebuild s).1.state = .fault ∧ s.fli.inputs.brk = true
  · have told : (duRebuild s).2 = [.fli (.command .breaker .off)] := if_pos trip
    simp only [if_pos trip]
    simp only [startStep, stepRebuild, told, take_cons, deliver_fli, fliHandle, fliCommand_trip_told trip.2,
      List.append_nil, settle_nil]
    rfl
  · have told : (duRebuild s).2 = [] := if_neg trip
    simp only [if_neg trip]
    simp only [startStep, stepRebuild, told, take_nil]
    rfl

/-! ### The classes from the highest priority down -/

/-- PROTECTED, and the classes of an order from the highest priority down. -/
def ClassOrder.falling (o : ClassOrder) : List FeederClass := [.protectedClass, o.highest, o.middle, o.lowest]

theorem ClassOrder.sheds_of {o : ClassOrder} (distinct : [o.lowest, o.middle, o.highest].Nodup)
    (sheddable : FeederClass.protectedClass ∉ [o.lowest, o.middle, o.highest]) : o.falling.Nodup := by
  have top : FeederClass.protectedClass ∉ [o.lowest, o.middle, o.highest].reverse := mt List.mem_reverse.mp sheddable
  exact List.nodup_cons.mpr ⟨top, List.nodup_reverse.mpr distinct⟩

/-- With three sheddable classes named, every class is among them or PROTECTED. -/
theorem ClassOrder.mem_falling {o : ClassOrder} (h : o.falling.Nodup) (k : FeederClass) : k ∈ o.falling := by
  have every (q : FeederClass) : q ∈ [FeederClass.showClass, .vendor, .amenity, .protectedClass] := by
    cases q <;> decide
  exact ((List.subperm_of_subset h fun q _ => every q).perm_of_length_le (Nat.le_refl 4)).mem_iff.mpr (every k)

theorem ClassOrder.priority_falling {o : ClassOrder} (h : o.falling.Nodup) :
    o.falling.Pairwise fun a b => priority o b < priority o a := by
  simp only [falling, List.nodup_cons, List.mem_cons, List.not_mem_nil, or_false, not_or] at h
  obtain ⟨⟨ph, pm, pl⟩, ⟨hm, hl⟩, ml, -⟩ := h
  have low : priority o o.lowest = 0 := by simp [priority, Ne.symm pl]
  have middle : priority o o.middle = 1 := by simp [priority, Ne.symm pm, ml]
  have high : priority o o.highest = 2 := by simp [priority, Ne.symm ph, hl, hm]
  have top : priority o .protectedClass = 3 := rfl
  simp [falling, low, middle, high, top]

/-! ### The feeders rebuilt (R100) -/

/-- The fitted feeders of a class, in feeder index. -/
def Cfg.ofClass (g : Cfg) (k : FeederClass) : List FeederId :=
  FeederId.every.filter fun n => g.fitted.get n && g.cls.get n == k

theorem Cfg.mem_ofClass {g : Cfg} {k : FeederClass} {n : FeederId} :
    n ∈ g.ofClass k ↔ g.fitted.get n = true ∧ g.cls.get n = k := by
  simp [ofClass, FeederId.mem_every]

theorem Cfg.ofClass_rising (g : Cfg) (k : FeederClass) : (g.ofClass k).Pairwise fun a b => a.index < b.index :=
  List.Pairwise.filter _ (by decide)

section
variable {s : State} {n : FeederId}

theorem scRebuild_recs (s : State) (n : FeederId) : (scRebuild s).recs.get n =
    { Feeder.start with closed := s.cfg.fitted.get n && s.fli.inputs.ffb.get n } :=
  Quad.get_ofFn _ n

theorem scRebuild_rotation {k : FeederClass} (h : k ≠ .protectedClass) :
    (scRebuild s).rotation k = s.cfg.ofClass k := by
  cases k with
  | protectedClass => exact absurd rfl h
  | _ => rfl

/-- The feeders found open at step 6, in the order they enter the shed list. -/
def openFeeders (s : State) : List FeederId :=
  (s.cfg.order.falling.flatMap s.cfg.ofClass).filter fun n => !((scRebuild s).recs.get n).closed

theorem scRebuild_shedList (s : State) : (scRebuild s).shedList = (openFeeders s).map fun n => ⟨n, .openAtStart⟩ := rfl

theorem mem_openFeeders : n ∈ openFeeders s ↔
    s.cfg.cls.get n ∈ s.cfg.order.falling ∧ s.cfg.fitted.get n = true ∧ s.fli.inputs.ffb.get n = false := by
  simp only [openFeeders, List.mem_filter, List.mem_flatMap, Cfg.mem_ofClass, scRebuild_recs, Bool.not_eq_true',
    Bool.and_eq_false_iff]
  constructor
  · rintro ⟨⟨k, named, fitted, cls⟩, opened⟩
    exact ⟨cls ▸ named, fitted, opened.resolve_left (by simp [fitted])⟩
  · rintro ⟨named, fitted, opened⟩
    exact ⟨⟨_, named, fitted, rfl⟩, .inr opened⟩

theorem scRebuild_listed : (scRebuild s).listed n = true ↔ n ∈ openFeeders s := by
  simp [Sc.listed, scRebuild_shedList]

/-- A feeder of a higher class, or of the same class with a lower index, stands first. -/
def ShedsBefore (g : Cfg) (a b : FeederId) : Prop :=
  priority g.order (g.cls.get b) < priority g.order (g.cls.get a) ∨
    (priority g.order (g.cls.get a) = priority g.order (g.cls.get b) ∧ a.index < b.index)

theorem openFeeders_pairwise (h : s.cfg.order.falling.Nodup) : (openFeeders s).Pairwise (ShedsBefore s.cfg) := by
  refine List.Pairwise.filter _ (List.pairwise_flatMap.mpr ⟨fun k _ => ?_, ?_⟩)
  · refine (s.cfg.ofClass_rising k).imp_of_mem fun ha hb lower => .inr ⟨?_, lower⟩
    rw [(Cfg.mem_ofClass.mp ha).2, (Cfg.mem_ofClass.mp hb).2]
  · refine (ClassOrder.priority_falling h).imp fun higher a ha b hb => .inl ?_
    rwa [(Cfg.mem_ofClass.mp ha).2, (Cfg.mem_ofClass.mp hb).2]
end

/-! ### The set rebuilt (R45, Table 3-2) -/

section
variable {s : State}

/-- FAULT active: the FAULT INPUT fault. -/
theorem duRebuild_fault (h : s.fli.inputs.fault = true) :
    (duRebuild s).1.state = .fault ∧ (duRebuild s).1.cause = some .faultInput := by
  simp [duRebuild, rebuiltState, h]

/-- RUNNING and FAULT inactive: by the breaker STOPPED, or a fault of a set lost. -/
theorem duRebuild_still (hf : s.fli.inputs.fault = false) (hr : s.fli.inputs.running = false) :
    (s.fli.inputs.brk = true → (duRebuild s).1.state = .fault ∧ (duRebuild s).1.cause = some .runLost) ∧
    (s.fli.inputs.brk = false → (duRebuild s).1.state = .stopped ∧ (duRebuild s).1.cause = none) := by
  refine ⟨fun hb => ?_, fun hb => ?_⟩ <;> simp [duRebuild, rebuiltState, hf, hr, hb]

/-- RUNNING active and FAULT not: ONBUS, READY or WARMING. -/
theorem duRebuild_running (hf : s.fli.inputs.fault = false) (hr : s.fli.inputs.running = true) :
    (duRebuild s).1.cause = none ∧ (duRebuild s).1.state =
      if s.fli.inputs.brk then .onbus else if s.fli.inputs.ready then .ready else .warming := by
  have state : rebuiltState s.fli.inputs =
      if s.fli.inputs.brk then .onbus else if s.fli.inputs.ready then .ready else .warming := by
    simp [rebuiltState, hf, hr]
  refine ⟨?_, state⟩
  have noFault : rebuiltState s.fli.inputs ≠ .fault := by
    rw [state]
    (repeat' split) <;> decide
  simp [duRebuild, hf, noFault]
end

/-- Settles O8: the set by the row of Table 3-2, the TRIP by `startStep_rebuild`, the feeders by their
order of entry. -/
theorem startRebuildsTheSet : Obligations.StartRebuildsTheSet := by
  intro inp s l d
  have du : d = (duRebuild s).1 := congrArg State.du (startStep_rebuild inp s)
  have fli : (startStep 6 inp s).fli = _ := congrArg State.fli (startStep_rebuild inp s)
  have sc : (startStep 6 inp s).sc = scRebuild s := congrArg State.sc (startStep_rebuild inp s)
  clear_value d
  subst du
  refine ⟨duRebuild_fault, fun hf hr => (duRebuild_still hf hr).1, fun hf hr => (duRebuild_still hf hr).2,
    fun hf hr hb => ?_, fun hf hr hb ready => ?_, fun hf hr hb ready => ?_, rfl, rfl, rfl, rfl, rfl, rfl, rfl, rfl, rfl,
    rfl, rfl, rfl, ⟨fun fault closed => ?_, fun stays => ?_⟩, ?_⟩
  · obtain ⟨cause, state⟩ := duRebuild_running hf hr
    exact ⟨state.trans (if_pos hb), cause⟩
  · obtain ⟨cause, state⟩ := duRebuild_running hf hr
    exact ⟨state.trans ((if_neg (ne_true_of_eq_false hb)).trans (if_pos ready)), cause⟩
  · obtain ⟨cause, state⟩ := duRebuild_running hf hr
    exact ⟨state.trans ((if_neg (ne_true_of_eq_false hb)).trans (if_neg (ne_true_of_eq_false ready))), cause⟩
  -- the TRIP
  · have tripped := fli.trans (if_pos ⟨fault, closed⟩)
    exact ⟨tripped, fun idle => tripped.trans (fliCommand_trip_idle closed idle)⟩
  · exact fli.trans (if_neg fun ⟨fault, closed⟩ => stays.elim (· fault) (Bool.eq_false_iff.mp · closed))
  -- the feeders
  · intro c o rank
    have eq : c = scRebuild s := sc
    clear_value c
    subst eq
    refine ⟨fun n => ?_, fun k hk => scRebuild_rotation hk, fun e he => ?_,
      fun distinct sheddable => ⟨fun n hn ho => ?_, ?_⟩, rfl, rfl, rfl, rfl⟩
    · rw [scRebuild_recs]
      exact ⟨rfl, rfl, rfl, rfl, rfl⟩
    · rw [scRebuild_shedList] at he
      obtain ⟨n, listed, rfl⟩ := List.mem_map.mp he
      obtain ⟨-, fitted, opened⟩ := mem_openFeeders.mp listed
      exact ⟨rfl, fitted, opened⟩
    · have named := ClassOrder.mem_falling (ClassOrder.sheds_of distinct sheddable) (s.cfg.cls.get n)
      exact scRebuild_listed.mpr (mem_openFeeders.mpr ⟨named, hn, ho⟩)
    · rw [scRebuild_shedList]
      exact List.pairwise_map.mpr (openFeeders_pairwise (ClassOrder.sheds_of distinct sheddable))

end Sys2Proof.Machine
end

section
/-! SUPPORT. The Changeover Controller: what its shared operations answer, and how what reaches it is handed on. -/

namespace Sys2Proof.Machine

/-! ### What reaches the CC -/

section
variable {s : State} {m : CcMsg} {c : Cc} {rs : List Report}

theorem deliver_cc_of (h : ccHandle m s = (c, rs)) : deliver (.cc m) s = ({ s with cc := c }, rs) := by
  rw [deliver_cc, h]

theorem deliver_cc_void (h : ccHandle m s = quiet s.cc) : deliver (.cc m) s = (s, []) := deliver_cc_of h

theorem run_cc (up : s.isUp = true) (h : ccHandle m s = (c, rs)) :
    s.run [.cc m] = State.handOn { s with cc := c } 1 rs := by
  rw [run_one up, deliver_cc_of h]

theorem run_cc_quiet (up : s.isUp = true) (h : ccHandle m s = quiet c) : s.run [.cc m] = { s with cc := c } :=
  (run_cc up h).trans (handOn_nil _ _)

theorem run_cc_void (up : s.isUp = true) (h : ccHandle m s = quiet s.cc) : s.run [.cc m] = s := run_cc_quiet up h

variable {h : Header} {p : List Byte} {k : Kind}

/-- A frame for the CC: what the CC makes of it is handed on. -/
theorem run_frame_cc (ha : Accepts s h) (hf : FromStation h) (hk : k.stationKind = true) (hl : lengthTest k p = true)
    (hr : frameReport h k p = [.cc m]) (hm : ccHandle m s.heard = (c, rs)) :
    s.run [frameOf k h p] = State.handOn { s.heard with cc := c } 2 rs := by
  rw [run_stationFrame ha hf hk hl, hr, handOn_cons _ _ _ (by decide), deliver_cc_of hm, List.append_nil]

theorem run_frame_cc_quiet (ha : Accepts s h) (hf : FromStation h) (hk : k.stationKind = true)
    (hl : lengthTest k p = true) (hr : frameReport h k p = [.cc m]) (hm : ccHandle m s.heard = quiet c) :
    s.run [frameOf k h p] = { s.heard with cc := c } :=
  (run_frame_cc ha hf hk hl hr hm).trans (handOn_nil _ _)

theorem run_frame_cc_void (ha : Accepts s h) (hf : FromStation h) (hk : k.stationKind = true)
    (hl : lengthTest k p = true) (hr : frameReport h k p = [.cc m]) (hm : ccHandle m s.heard = quiet s.cc) :
    s.run [frameOf k h p] = s.heard := run_frame_cc_quiet ha hf hk hl hr hm

/-- A tool command for the CC, which no parameters follow: what the CC makes of it is handed on. -/
theorem run_tool_cc {k : SubKind} (tag : Byte) (hc : Commands s h) (hk : k ≠ .restart) (hp : k.paramLength = 0)
    (hl : s.fli.inputs.lock = false) (hr : k.report (askOf h k tag) [] = [.cc m])
    (hm : ccHandle m s.heard = (c, rs)) :
    s.run [toolOf k h tag []] = State.handOn { s.heard with cc := c } 2 rs := by
  rw [run_toolOf (params := []) tag hc hk hp.symm (by simp only [hl, Bool.and_false]), hr,
    handOn_cons _ _ _ (by decide), deliver_cc_of hm, List.append_nil]
end

/-! ### Entries (R61) -/

theorem ccEnter_eq (c : Cc) (st : Handover) : ccEnter c st = ({ c with state := st }, enteringReports c.state st) := rfl

theorem ccIdle_eq (c : Cc) : ccIdle c = (c.idled, enteringReports c.state .idle ++ [.cc .serve]) := rfl

/-! ### Calls opened and ended (R64 to R66, R84, R85) -/

/-- The CC with a CALL sent for a record: a new number, an empty offer list, the offer window (R66). -/
def Cc.calling (c : Cc) (r : CallRec) : Cc :=
  { c with
    counter := (c.counter + 1) % 256
    call := some { r with
      number := (c.counter + 1) % 256, offers := [], incoming := none, mode := none, noted := false }
    offerWindow := some 3000, retryWait := none, noIncoming := false, partnerLost := false }

/-- The CALL of a number and a cause (Table 9-7). -/
def callFrame (s : State) (number : Nat) (cause : Cause) : Report :=
  .lc (.offer (groupFrame s.cfg .call 0 (callPayload s number cause)))

/-- A call record as it is opened (4.1). -/
def CallRec.opened (number : Nat) (cause : Cause) : CallRec :=
  ⟨number, cause, 0, [], none, none, false, none, false, false⟩

/-- A call with this cause waits for a show to end (R80). -/
def Cause.waits (k : Cause) (s : State) : Prop := k ≠ .fuelCritical ∧ s.pt.figs.showActive = true

/-- The station may open a call (R64, R65). -/
def Cc.MayCall (c : Cc) (s : State) : Prop :=
  s.cfg.setFitted = true ∧ c.state = .idle ∧ s.du.state = .onbus ∧ s.lc.duplicate = false

/-- The ABORT of a call ended from HOLD, CALL or PREPARE, to those who may still answer (R63, R84, R85). -/
def dropFrames (c : Cc) (s : State) (r : CallRec) (why : AbortReason) : List Report :=
  if c.state = .prepare then [abortFrame s (r.incoming.getD 0) s.cfg.station r.number why]
  else if c.state = .call ∧ c.offerWindow.isSome then [abortFrame s 0 s.cfg.station r.number why]
  else []

section
variable {c : Cc} {s : State} {k : Cause}

theorem sendCall_eq (c : Cc) (s : State) (r : CallRec) :
    sendCall c s r = (c.calling r, [callFrame s ((c.counter + 1) % 256) r.cause]) := rfl

theorem callNow_eq (c : Cc) (s : State) (r : CallRec) : callNow c s r =
    ({ c.calling r with state := .call },
      callFrame s ((c.counter + 1) % 256) r.cause :: enteringReports c.state .call) := rfl

theorem deferrable_iff : k.deferrable = true ↔ k ≠ .fuelCritical := by cases k <;> decide

theorem waits_iff : (k.deferrable && s.pt.figs.showActive) = true ↔ k.waits s := by
  rw [Bool.and_eq_true, deferrable_iff, Cause.waits]

theorem not_waits_iff : ¬ k.waits s ↔ k = .fuelCritical ∨ s.pt.figs.showActive = false := by
  simp only [Cause.waits, ne_eq, not_and_or, not_not, Bool.not_eq_true]

theorem mayCall_iff : mayCall c s = true ↔ c.MayCall s := by
  simp only [mayCall, Cc.MayCall, Bool.and_eq_true, beq_iff_eq, Bool.not_eq_true', and_assoc]

theorem openCall_holds (h : k.waits s) : openCall c s k =
    ({ c with state := .hold, call := some (.opened c.counter k) }, enteringReports c.state .hold) :=
  if_pos (waits_iff.mpr h)

theorem openCall_calls (h : ¬ k.waits s) : openCall c s k =
    ({ c.calling (.opened c.counter k) with state := .call },
      callFrame s ((c.counter + 1) % 256) k :: enteringReports c.state .call) :=
  if_neg (mt waits_iff.mp h)

theorem serve_none (h : c.pending = none) : serve c s = quiet c := by simp only [serve, h]

theorem serve_unable (h : ¬ c.MayCall s) : serve c s = quiet c := by
  unfold serve
  split
  · rfl
  · exact if_neg (mt mayCall_iff.mp h)

theorem serve_opens (h : c.pending = some k) (may : c.MayCall s) :
    serve c s = openCall { c with pending := none } s k := by
  simp only [serve, h, mayCall_iff.mpr may, if_true]

theorem dropCall_eq (c : Cc) (s : State) (r : CallRec) (why : AbortReason) : dropCall c s r why =
    (c.idled, dropFrames c s r why ++ enteringReports c.state .idle ++ [.cc .serve]) := by
  rw [List.append_assoc]
  rfl

theorem dropFrames_calling {r : CallRec} {why : AbortReason} (hs : c.state = .call)
    (window : c.offerWindow.isSome = true) : dropFrames c s r why = [abortFrame s 0 s.cfg.station r.number why] :=
  (if_neg (by rw [hs]; decide)).trans (if_pos ⟨hs, window⟩)

/-! ### Failed attempts (R71) -/

variable {r : CallRec}

theorem failedAttempt_retries (h : r.attempts < 2) (hs : c.state = .call) : failedAttempt c s r =
    quiet { c with call := some r.failed, offerWindow := none, prepLimit := none, retryWait := some 30000 } := by
  have more : r.attempts + 1 < 3 := by omega
  simp only [failedAttempt, if_pos more, if_pos hs]
  rfl

/-- An attempt fails after the pick: the station is back in CALL, where a show that is active is told of at once
(log 32). -/
theorem failedAttempt_returns (h : r.attempts < 2) (hs : c.state ≠ .call) : failedAttempt c s r =
    ({ c with
        state := .call, call := some r.failed, offerWindow := none, prepLimit := none, retryWait := some 30000 },
      enteringReports c.state .call ++ [.cc (.showActive s.pt.figs.showActive)]) := by
  have more : r.attempts + 1 < 3 := by omega
  simp only [failedAttempt, if_pos more, if_neg hs]
  rfl

theorem failedAttempt_ends (h : 2 ≤ r.attempts) : failedAttempt c s r =
    ({ c.idled with noIncoming := true }, enteringReports c.state .idle ++ [.cc .serve]) :=
  if_neg (by omega)
end

/-! ### The incoming side ended early (R72, R81) -/

theorem giveUp_eq (c : Cc) (s : State) : giveUp c s =
    (c.idled, treatSet s ++ enteringReports c.state .idle ++ [.cc .serve]) := by
  rw [List.append_assoc]
  rfl

theorem giveUpWith_eq (c : Cc) (s : State) (r : IncRec) (why : AbortReason) : giveUpWith c s r why =
    (c.idled, [abortFrame s r.caller r.caller r.number why] ++ treatSet s ++ enteringReports c.state .idle ++
      [.cc .serve]) := by
  simp only [giveUpWith, giveUp_eq, List.append_assoc, List.cons_append, List.nil_append]

/-! ### The reference of a frame (R62) -/

theorem takes_outgoing {c : Cc} {r : CallRec} (h : c.call = some r) {own sender caller number : Nat}
    (hs : 1 ≤ sender) : c.takes own sender caller number = true ↔
      caller = own ∧ number = r.number ∧ r.incoming = some sender := by
  have partner : r.incoming.getD 0 = sender ↔ r.incoming = some sender := by
    cases r.incoming with
    | none => simp only [Option.getD_none, reduceCtorEq, iff_false]; omega
    | some n => simp only [Option.getD_some, Option.some.injEq]
  simp only [Cc.takes, Cc.reference, Cc.partner, h, Bool.and_eq_true, beq_iff_eq, Option.some.injEq, Prod.mk.injEq,
    partner, and_assoc, eq_comm (a := own), eq_comm (a := r.number)]

theorem takes_incoming {c : Cc} {r : IncRec} (hc : c.call = none) (h : c.inc = some r)
    {own sender caller number : Nat} : c.takes own sender caller number = true ↔
      caller = r.caller ∧ number = r.number ∧ sender = r.caller := by
  simp only [Cc.takes, Cc.reference, Cc.partner, hc, h, Bool.and_eq_true, beq_iff_eq, Option.some.injEq,
    Prod.mk.injEq, and_assoc, eq_comm (a := r.caller), eq_comm (a := r.number)]

theorem takes_idle {c : Cc} (hc : c.call = none) (hi : c.inc = none) (own sender caller number : Nat) :
    c.takes own sender caller number = false := by
  simp only [Cc.takes, Cc.reference, hc, hi]
  rfl

end Sys2Proof.Machine
end

section
/-! SUPPORT. Handover tool commands, the pending fuel cause, shows (O41). -/

namespace Sys2Proof.Machine

/-! ### The tool commands (R65, R85) -/

section
variable {c : Cc} {s : State} {r : CallRec}

theorem ccHandoverRequest_refused (ask : Ask) (h : ¬ c.MayCall s) :
    ccHandoverRequest c s ask = (c, [.lc (.answer ask .state [])]) := if_neg (mt mayCall_iff.mp h)

theorem ccHandoverRequest_opens (ask : Ask) (may : c.MayCall s) {d : Cc} {rs : List Report}
    (h : openCall c s .scheduled = (d, rs)) : ccHandoverRequest c s ask = (d, rs ++ [.lc (.answer ask .done [])]) := by
  simp only [ccHandoverRequest, mayCall_iff.mpr may, if_true, h, Act.andThen]

theorem ccHandoverAbort_refused (ask : Ask)
    (h : c.call = none ∨ (c.state ≠ .hold ∧ c.state ≠ .call ∧ c.state ≠ .prepare)) :
    ccHandoverAbort c s ask = (c, [.lc (.answer ask .state [])]) := by
  unfold ccHandoverAbort
  dsimp only
  split
  next r call =>
    obtain ⟨noHold, noCall, noPrepare⟩ := h.resolve_left (by simp only [call, reduceCtorEq, not_false_eq_true])
    split
    · exact absurd ‹_› noHold
    · exact absurd ‹_› noCall
    · exact absurd ‹_› noPrepare
    all_goals rfl
  · rfl

theorem ccHandoverAbort_drops (ask : Ask) (h : c.call = some r)
    (hs : c.state = .hold ∨ c.state = .call ∨ c.state = .prepare) : ccHandoverAbort c s ask =
      (c.idled, dropFrames c s r .tool ++ enteringReports c.state .idle ++
        [.cc .serve, .lc (.answer ask .done [])]) := by
  have drops : ccHandoverAbort c s ask = (dropCall c s r .tool).andThen fun d => (d, [.lc (.answer ask .done [])]) := by
    rcases hs with hs | hs | hs <;> simp only [ccHandoverAbort, h, hs]
  rw [drops, dropCall_eq, Act.andThen, List.append_assoc _ [Report.cc .serve]]
  rfl
end

section
variable {s : State} {h : Header} {d : Cc} {rs : List Report}

theorem exec_handoverRequest (tag : Byte) (hc : Commands s h) (hl : s.fli.inputs.lock = false)
    (hm : ccHandoverRequest s.cc s.heard (askOf h .handoverRequest tag) = (d, rs)) :
    exec (.handoverRequest h tag []) s = .next (State.handOn { s.heard with cc := d } 2 rs) :=
  congrArg Host.Outcome.next (run_tool_cc tag hc (by decide) rfl hl rfl hm)

theorem exec_handoverAbort (tag : Byte) (hc : Commands s h) (hl : s.fli.inputs.lock = false)
    (hm : ccHandoverAbort s.cc s.heard (askOf h .handoverAbort tag) = (d, rs)) :
    exec (.handoverAbort h tag []) s = .next (State.handOn { s.heard with cc := d } 2 rs) :=
  congrArg Host.Outcome.next (run_tool_cc tag hc (by decide) rfl hl rfl hm)
end

/-! ### A pending cause taken (R63, R64) -/

/-- The CC with the pending fuel cause a change of the threshold state leaves (R63). -/
def Cc.fuelled (c : Cc) (before after : Threshold) : Cc :=
  { c with pending := pendingAfter c.pending before after }

section
variable {c : Cc} {s : State} {r : CallRec} {k : Cause} {before after : Threshold}

theorem absorbPending_none (h : c.pending = none) : absorbPending c s = quiet c := by simp only [absorbPending, h]

theorem absorbPending_serves (h : c.call = none) : absorbPending c s = serve c s := by
  cases pending : c.pending with
  | none => rw [absorbPending_none pending, serve_none pending]
  | some k => simp only [absorbPending, pending, h]

/-- A pending cause no greater than the call's is dropped. -/
theorem absorbPending_lesser (hp : c.pending = some k) (hc : c.call = some r) (out : c.state.outgoingCall = true)
    (le : k.code ≤ r.cause.code) : absorbPending c s = quiet { c with pending := none } := by
  simp only [absorbPending, hp, hc, out, Bool.not_true, Bool.false_eq_true, if_false, if_pos le]

/-- A greater one replaces the cause, and FUEL CRITICAL calls from HOLD. -/
theorem absorbPending_greater (hp : c.pending = some k) (hc : c.call = some r) (out : c.state.outgoingCall = true)
    (gt : r.cause.code < k.code) : absorbPending c s =
      if c.state = .hold ∧ k = .fuelCritical then
        callNow { c with pending := none, call := some { r with cause := k, attempts := 0 } } s
          { r with cause := k, attempts := 0 }
      else quiet { c with pending := none, call := some { r with cause := k, attempts := 0 } } := by
  have critical : (!k.deferrable) = true ↔ k = .fuelCritical := by cases k <;> decide
  simp only [absorbPending, hp, hc, out, Bool.not_true, Bool.false_eq_true, if_false, if_neg (Nat.not_le.mpr gt),
    critical]

theorem fuel_iff : k.fuel = true ↔ k ≠ .scheduled := by cases k <;> decide

theorem thresholdChange_offered (hs : c.state = .offered) (h : after ≠ .normal) :
    thresholdChange c s before after = ccIdle (c.fuelled before after) := if_pos ⟨hs, h⟩

/-- The threshold is left on a call not yet answered: the fuel call is withdrawn. -/
theorem thresholdChange_withdraws (hc : c.call = some r) (hs : c.state = .hold ∨ c.state = .call)
    (fuel : r.cause ≠ .scheduled) : thresholdChange c s before .normal =
      dropCall (c.fuelled before .normal) s r .withdrawn := by
  simp only [thresholdChange, ne_eq, not_true_eq_false, and_false, if_false, hc, hs, fuel_iff.mpr fuel, and_self,
    if_true]
  rfl

theorem thresholdChange_absorbs (standby : c.state ≠ .offered ∨ after = .normal)
    (stays : ∀ r, c.call = some r →
      after ≠ .normal ∨ r.cause = .scheduled ∨ (c.state ≠ .hold ∧ c.state ≠ .call)) :
    thresholdChange c s before after = absorbPending (c.fuelled before after) s := by
  have noOffer : ¬ (c.state = .offered ∧ after ≠ .normal) := fun ⟨hs, ha⟩ => standby.elim (· hs) ha
  unfold thresholdChange
  dsimp only
  rw [if_neg noOffer]
  split
  next r call =>
    refine if_neg fun ⟨hs, fuel, normal⟩ => ?_
    rcases stays r call with h | h | ⟨noHold, noCall⟩
    · exact h normal
    · exact fuel_iff.mp fuel h
    · exact hs.elim noHold noCall
  · rfl

/-- In IDLE the cause left pending is served. -/
theorem thresholdChange_idle (hs : c.state = .idle) (hc : c.call = none) : thresholdChange c s before after =
    serve (c.fuelled before after) s :=
  (thresholdChange_absorbs (.inl (by rw [hs]; decide)) fun _ hr => nomatch hc.symm.trans hr).trans
    (absorbPending_serves hc)

/-- A call not yet over takes the cause in. -/
theorem thresholdChange_outgoing (out : c.state.outgoingCall = true) (low : after ≠ .normal) :
    thresholdChange c s before after = absorbPending (c.fuelled before after) s := by
  refine thresholdChange_absorbs (.inl fun offered => ?_) fun _ _ => .inl low
  rw [offered] at out
  exact absurd out (by decide)

theorem deliver_threshold {d : Cc} {rs : List Report} (h : thresholdChange s.cc s before after = (d, rs)) :
    deliver (.cc (.threshold before after)) s = ({ s with cc := d }, rs) := deliver_cc_of h
end

/-! ### Shows (R80) -/

section
variable {c : Cc} {s : State} {r : CallRec}

theorem showChange_none (h : c.call = none) (b : Bool) : showChange c s b = quiet c := by simp only [showChange, h]

theorem showChange_ends (h : c.call = some r) (hs : c.state = .hold) : showChange c s false = callNow c s r := by
  simp only [showChange, h, hs]

theorem showChange_call (h : c.call = some r) (hs : c.state = .call) (k : r.cause ≠ .fuelCritical) :
    showChange c s true = ({ c with state := .hold, offerWindow := none, retryWait := none },
      (if c.offerWindow.isSome then [refFrame s .hold 0 s.cfg.station r.number []] else []) ++
        enteringReports .call .hold) := by
  simp only [showChange, h, hs, deferrable_iff.mpr k, if_true, ccEnter_eq]

theorem showChange_prepare (h : c.call = some r) (hs : c.state = .prepare) (open' : r.mode = some .open')
    (k : r.cause ≠ .fuelCritical) : showChange c s true =
      ({ c with
          state := .hold, call := some { r with incoming := none, mode := none, noted := false }, prepLimit := none },
        [refFrame s .hold (r.incoming.getD 0) s.cfg.station r.number []] ++ enteringReports .prepare .hold) := by
  simp only [showChange, h, hs, deferrable_iff.mpr k, open', and_self, if_true, ccEnter_eq]
  rfl

theorem showChange_void (h : c.call = some r) {b : Bool} (noHold : ¬ (c.state = .hold ∧ b = false))
    (noCall : ¬ (c.state = .call ∧ b = true ∧ r.cause ≠ .fuelCritical))
    (noPrepare : ¬ (c.state = .prepare ∧ r.mode = some .open' ∧ b = true ∧ r.cause ≠ .fuelCritical)) :
    showChange c s b = quiet c := by
  unfold showChange
  rw [h]
  dsimp only
  split
  next hs => exact absurd ⟨hs, rfl⟩ noHold
  next hs => exact if_neg fun k => noCall ⟨hs, rfl, deferrable_iff.mp k⟩
  next hs => exact if_neg fun ⟨k, open'⟩ => noPrepare ⟨hs, open', rfl, deferrable_iff.mp k⟩
  · rfl
end

/-! ### O41, clause by clause -/

theorem setChanged_mem_moveReports (b a : SetState) : .cc (.setChanged b a) ∈ moveReports b a := by
  simp only [moveReports, List.mem_append, List.mem_cons, true_or, or_true]

/-- Settles O41: the tool commands by whether a call may be opened or ended, the threshold by the cause it leaves
pending, a show by the state it meets, a pending cause by whether it may be served. -/
theorem handoverToolCommands : Obligations.HandoverToolCommands := by
  refine ⟨fun h tag s hc hl => ?_, fun s before after => ?_, fun s b => ?_, fun s => ?_⟩
  · intro may opened done next
    refine ⟨fun no => ?_, fun may active => ?_, fun may quiet => ?_, fun no => ?_, fun r call early => ?_⟩
    · refine (exec_handoverRequest tag hc hl (ccHandoverRequest_refused (s := s.heard) _ no)).trans ?_
      exact congrArg Host.Outcome.next (handOn_answer _ _ _ _ (by decide))
    · obtain ⟨-, idle, -⟩ := id may
      exact exec_handoverRequest tag hc hl
        (ccHandoverRequest_opens _ may (idle ▸ openCall_holds (s := s.heard) ⟨by decide, active⟩))
    · obtain ⟨-, idle, -⟩ := id may
      exact exec_handoverRequest tag hc hl
        (ccHandoverRequest_opens _ may (idle ▸ openCall_calls (s := s.heard) (not_waits_iff.mpr (.inr quiet))))
    · refine (exec_handoverAbort tag hc hl (ccHandoverAbort_refused (s := s.heard) _ no)).trans ?_
      exact congrArg Host.Outcome.next (handOn_answer _ _ _ _ (by decide))
    · exact exec_handoverAbort tag hc hl (ccHandoverAbort_drops (s := s.heard) _ call early)
  · intro pending
    have left : pendingAfter s.cc.pending before after = pending := by
      cases after <;> cases before <;> simp only [pending, pendingAfter]
      split
      next h => exact h
      · rfl
    clear_value pending
    subst left
    intro c x becomes may next called opened
    have told {d : Cc} {rs : List Report} (h : thresholdChange s.cc s before after = (d, rs)) : becomes d :=
      congrArg Prod.fst (deliver_threshold h)
    have able (idle : s.cc.state = .idle) : c.MayCall s ↔ may := and_congr_right' (and_iff_right idle)
    refine ⟨fun offered low => ?_, fun r call early fuel normal => ?_, fun r call none standby stays => ?_,
      fun r k call pending low out => ⟨fun le => ?_, fun gt => ⟨fun hold critical => ?_, fun other => ?_⟩⟩,
      fun idle call => ⟨fun none => ?_, fun k pending may => ⟨fun calls => ?_, fun low active => ?_⟩⟩⟩
    · exact told (thresholdChange_offered offered low)
    · subst normal
      have drops := (thresholdChange_withdraws (before := before) (s := s) call early fuel).trans (dropCall_eq _ _ _ _)
      refine ⟨told drops, fun calling window => ?_⟩
      rw [dropFrames_calling (c := s.cc.fuelled before .normal) calling window] at drops
      rw [congrArg Prod.snd (deliver_threshold drops)]
      exact List.mem_cons_self
    · exact told ((thresholdChange_absorbs standby fun q hq => by cases call.symm.trans hq; exact stays).trans
        (absorbPending_none none))
    · exact told ((thresholdChange_outgoing out low).trans (absorbPending_lesser pending call out le))
    · exact told ((thresholdChange_outgoing out low).trans
        ((absorbPending_greater (c := c) pending call out gt).trans (if_pos ⟨hold, critical⟩)))
    · exact told ((thresholdChange_outgoing out low).trans ((absorbPending_greater (c := c) pending call out gt).trans
        (if_neg fun ⟨hold, critical⟩ => other.elim (· hold) (· critical))))
    · exact told ((thresholdChange_idle idle call).trans
        (none.elim (serve_none (c := c)) (serve_unable ∘ mt (able idle).mp)))
    · exact told ((thresholdChange_idle idle call).trans
        ((serve_opens (c := c) pending ((able idle).mpr may)).trans (openCall_calls (not_waits_iff.mpr calls))))
    · have noCritical : k ≠ .fuelCritical := by rw [low]; decide
      exact told ((thresholdChange_idle idle call).trans
        ((serve_opens (c := c) pending ((able idle).mpr may)).trans (openCall_holds ⟨noCritical, active⟩)))
  · intro x next held
    refine ⟨fun none => deliver_cc_void (showChange_none none b), fun r call => ?_⟩
    intro deferred
    refine ⟨fun hold ended => ?_, fun calling defers => ?_, fun prepare open' defers => ?_, fun h1 h2 h3 => ?_⟩
    · subst ended
      exact deliver_cc_of ((showChange_ends call hold).trans (hold ▸ callNow_eq _ _ _))
    · obtain ⟨rfl, k⟩ := defers
      exact deliver_cc_of (calling ▸ showChange_call call calling k)
    · obtain ⟨rfl, k⟩ := defers
      exact deliver_cc_of (prepare ▸ showChange_prepare call prepare open' k)
    · exact deliver_cc_void (showChange_void call h1 h2 h3)
  · intro x may next opened
    refine ⟨fun h => ?_, fun k pending may => ⟨fun low active => ?_, fun calls => ?_⟩, fun call inc b a => ?_,
      setChanged_mem_moveReports⟩
    · exact deliver_cc_void (h.elim serve_none serve_unable)
    · obtain ⟨-, idle, -⟩ := id may
      exact deliver_cc_of ((serve_opens pending may).trans (idle ▸ openCall_holds ⟨low, active⟩))
    · obtain ⟨-, idle, -⟩ := id may
      exact deliver_cc_of ((serve_opens pending may).trans (idle ▸ openCall_calls (not_waits_iff.mpr calls)))
    · have served : setChanged s.cc s b a = serve s.cc s := by simp only [setChanged, call, inc]
      exact deliver_cc_of served

end Sys2Proof.Machine
end

section
/-! SUPPORT. Calls heard, offers and their rank, the pick (O42). -/

namespace Sys2Proof.Machine

/-! ### Expiries and frames of the CC -/

section
variable {s : State} {h : Header} {p : List Byte} {d : Cc} {rs : List Report}

theorem exec_callReceived (ha : Accepts s h) (hf : FromStation h) (hl : p.length = 6)
    (hm : hearCall s.cc s.heard (fieldAt p 5 1) (fieldAt p 0 1) (fieldAt p 2 2) = (d, rs)) :
    exec (.callReceived h p) s = .next (State.handOn { s.heard with cc := d } 2 rs) :=
  congrArg Host.Outcome.next (run_frame_cc ha hf rfl (beq_iff_eq.mpr hl) rfl hm)

theorem exec_offerReceived (ha : Accepts s h) (hf : FromStation h) (hl : p.length = 8)
    (hm : hearOffer s.cc s.heard (fieldAt p 0 1) (fieldAt p 1 1) (offerOf h.sender.toNat p) = quiet d) :
    exec (.offerReceived h p) s = .next { s.heard with cc := d } :=
  congrArg Host.Outcome.next (run_frame_cc_quiet ha hf rfl (beq_iff_eq.mpr hl) rfl hm)
end

/-! ### A CALL heard (R66, R67) -/

/-- A standby answers a CALL of this need under these conditions (R67, R37). -/
def Cc.MayOffer (c : Cc) (s : State) (needed : Nat) : Prop :=
  c.state = .idle ∧ s.lc.duplicate = false ∧ s.cfg.setFitted = true ∧ s.du.state ≠ .fault ∧ s.du.breaker = false ∧
    s.fu.threshold = .normal ∧ needed ≤ s.cfg.rating ∧ s.du.startIntent = none

section
variable {c : Cc} {s : State} {r : CallRec} {caller number needed : Nat} {o : Offer}

theorem mayOffer_iff : mayOffer c s needed = true ↔ c.MayOffer s needed := by
  simp only [mayOffer, Cc.MayOffer, Bool.and_eq_true, beq_iff_eq, bne_iff_ne, Bool.not_eq_true', decide_eq_true_eq,
    Option.isNone_iff_eq_none, and_assoc]

theorem hearCall_void (h : ¬ c.MayOffer s needed) : hearCall c s caller number needed = quiet c :=
  if_neg (mt mayOffer_iff.mp h)

theorem hearCall_offers (h : c.MayOffer s needed) : hearCall c s caller number needed =
    ({ c with state := .offered, inc := some ⟨caller, number, none, false, false⟩, offerTimer := some 5000 },
      .lc (.offer (groupFrame s.cfg .offer caller (offerPayload s caller number))) ::
        enteringReports .idle .offered) := by
  obtain ⟨idle, -⟩ := id h
  rw [← idle]
  exact if_pos (mayOffer_iff.mpr h)

/-! ### An OFFER heard (R69) -/

theorem hearOffer_none (h : c.call = none) : hearOffer c s caller number o = quiet c := by simp only [hearOffer, h]

theorem hearOffer_other (h : c.call = some r)
    (other : ¬ (c.state = .call ∧ c.offerWindow.isSome = true ∧ caller = s.cfg.station ∧ number = r.number)) :
    hearOffer c s caller number o = quiet c := by
  simp only [hearOffer, h, if_neg other]

theorem hearOffer_enters (h : c.call = some r)
    (mine : c.state = .call ∧ c.offerWindow.isSome = true ∧ caller = s.cfg.station ∧ number = r.number) :
    hearOffer c s caller number o = quiet { c with call := some { r with offers := enterOffer r.offers o } } := by
  simp only [hearOffer, h, if_pos mine]

/-! ### The offer window and the retry wait (R70, R71) -/

theorem offerWindowEnd_void (h : (c.call = none ∨ c.state ≠ .call) ∨ c.offerWindow = none) :
    offerWindowEnd c s = quiet c := by
  unfold offerWindowEnd
  split
  next r call =>
    refine if_neg fun ⟨calling, window⟩ => ?_
    rcases h with (none | other) | stopped
    · cases none.symm.trans call
    · exact other calling
    · exact Option.not_isSome_iff_eq_none.mpr stopped window
  · rfl

theorem offerWindowEnd_fails (h : c.call = some r) (hs : c.state = .call) (window : c.offerWindow.isSome = true)
    (empty : r.offers = []) : offerWindowEnd c s = failedAttempt { c with offerWindow := none } s r := by
  simp only [offerWindowEnd, h, hs, window, and_self, if_true, empty]

/-- The first of the list is picked, CLOSED when both are closed-capable. -/
theorem offerWindowEnd_picks (h : c.call = some r) (hs : c.state = .call) (window : c.offerWindow.isSome = true)
    {rest : List Offer} (first : r.offers = o :: rest) : offerWindowEnd c s =
      ({ c with
          state := .prepare
          call := some { r with incoming := some o.station, mode := some (pickMode s.cfg.closedCap o.closedCap) }
          offerWindow := none, prepLimit := some 160000 },
        [refFrame s .pick 0 s.cfg.station r.number
            [BitVec.ofNat 8 o.station, BitVec.ofNat 8 (pickMode s.cfg.closedCap o.closedCap).code]] ++
          enteringReports .call .prepare ++ [.cc .checkSet]) := by
  simp only [offerWindowEnd, h, hs, window, and_self, if_true, first, ccEnter_eq]
  rfl

theorem pickMode_eq (own other : Bool) : pickMode own other = if own ∧ other then .closed' else .open' := by
  simp only [pickMode, Bool.and_eq_true]

theorem retryWaitEnd_void (h : (c.call = none ∨ c.state ≠ .call) ∨ c.retryWait = none) :
    retryWaitEnd c s = quiet c := by
  unfold retryWaitEnd
  split
  next r call =>
    refine if_neg fun ⟨calling, wait⟩ => ?_
    rcases h with (none | other) | stopped
    · cases none.symm.trans call
    · exact other calling
    · exact Option.not_isSome_iff_eq_none.mpr stopped wait
  · rfl

theorem retryWaitEnd_calls (h : c.call = some r) (hs : c.state = .call) (wait : c.retryWait.isSome = true) :
    retryWaitEnd c s = sendCall c s r := by
  simp only [retryWaitEnd, h, hs, wait, and_self, if_true]
end

/-- The offer timer's expiry. -/
theorem ccHandle_offerTimer (s : State) : ccHandle .offerTimer s =
    if s.cc.state = .offered ∧ s.cc.offerTimer.isSome then ccIdle s.cc else quiet s.cc := rfl

/-! ### The rank of the offers (R69, R70) -/

section
variable {a b : Offer} {l : List Offer}

theorem pickAhead_iff : pickAhead a b = true ↔ (a.ready = true ∧ b.ready = false) ∨ (a.ready = b.ready ∧
    (b.hours < a.hours ∨ (a.hours = b.hours ∧ a.station < b.station))) := by
  rw [pickAhead, startAhead_iff, Bool.not_eq_true, ← Bool.eq_iff_iff]

/-- The rank of an offer: the least is picked. -/
def Offer.rank (o : Offer) : Bool ×ₗ ℕᵒᵈ ×ₗ ℕ := toLex (!o.ready, toLex (OrderDual.toDual o.hours, o.station))

theorem pickAhead_iff_rank : pickAhead a b = true ↔ a.rank < b.rank := by
  have unready : (!a.ready) < (!b.ready) ↔ a.ready = true ∧ b.ready = false := by
    cases a.ready <;> cases b.ready <;> decide
  have alike : (!a.ready) = (!b.ready) ↔ a.ready = b.ready := Bool.not_inj_iff
  simp only [pickAhead_iff, Offer.rank, Prod.Lex.toLex_lt_toLex, unready, alike, OrderDual.toDual_lt_toDual,
    EmbeddingLike.apply_eq_iff_eq]

theorem pickAhead_eq_false_iff : pickAhead a b = false ↔ b.rank ≤ a.rank := by
  rw [← Bool.not_eq_true, pickAhead_iff_rank, not_lt]

/-- The list stands in rank: nothing is ahead of what stands before it. -/
def Ranked (l : List Offer) : Prop := l.Pairwise fun a b => pickAhead b a = false

theorem rankOffer_eq_orderedInsert (o : Offer) (l : List Offer) :
    rankOffer o l = l.orderedInsert (fun a b => pickAhead a b = true) o := by
  induction l with
  | nil => rfl
  | cons x l ih => rw [rankOffer, List.orderedInsert_cons, ih]

theorem rankOffer_perm (o : Offer) (l : List Offer) : (rankOffer o l).Perm (o :: l) := by
  rw [rankOffer_eq_orderedInsert]
  exact List.perm_orderedInsert _ o l

theorem rankOffer_ranked (h : Ranked l) (o : Offer) : Ranked (rankOffer o l) := by
  induction l with
  | nil => exact List.pairwise_singleton _ _
  | cons x l ih =>
      obtain ⟨head, tail⟩ := List.pairwise_cons.mp h
      rw [rankOffer]
      split
      next ahead =>
        have first : o.rank < x.rank := pickAhead_iff_rank.mp ahead
        refine List.pairwise_cons.mpr ⟨fun y hy => ?_, h⟩
        rcases List.mem_cons.mp hy with rfl | hy
        · exact pickAhead_eq_false_iff.mpr first.le
        · exact pickAhead_eq_false_iff.mpr (first.le.trans (pickAhead_eq_false_iff.mp (head y hy)))
      next behind =>
        refine List.pairwise_cons.mpr ⟨fun y hy => ?_, ih tail⟩
        rcases List.mem_cons.mp ((rankOffer_perm o l).mem_iff.mp hy) with rfl | hy
        · exact Bool.eq_false_of_not_eq_true behind
        · exact head y hy

/-- The list without the offer's station. -/
def othersThan (o : Offer) (l : List Offer) : List Offer := l.filter fun x => decide (x.station ≠ o.station)

theorem enterOffer_eq (l : List Offer) (o : Offer) : enterOffer l o = (rankOffer o (othersThan o l)).take 8 := by
  simp only [enterOffer, othersThan, bne, decide_not, beq_eq_decide]

theorem ranked_rankOffer_others (h : Ranked l) (o : Offer) : Ranked (rankOffer o (othersThan o l)) :=
  rankOffer_ranked (List.Pairwise.filter _ h) o

theorem nodup_rankOffer_others (h : (l.map (·.station)).Nodup) (o : Offer) :
    ((rankOffer o (othersThan o l)).map (·.station)).Nodup := by
  rw [((rankOffer_perm o _).map _).nodup_iff, List.map_cons, List.nodup_cons]
  refine ⟨fun listed => ?_, h.sublist (List.filter_sublist.map _)⟩
  obtain ⟨x, hx, same⟩ := List.mem_map.mp listed
  exact of_decide_eq_true (List.mem_filter.mp hx).2 same

theorem length_rankOffer_others (o : Offer) (l : List Offer) :
    (rankOffer o (othersThan o l)).length = (othersThan o l).length + 1 := (rankOffer_perm o _).length_eq
end

/-! ### O42, clause by clause -/

/-- Settles O42: the frames by whether they are the station's own, the list by rank, the expiries by what the list
holds. -/
theorem callsOffersPicks : Obligations.CallsOffersPicks := by
  refine ⟨fun h p s ha hf hl => ?_, fun h p s ha hf hl => ?_, fun l o => ?_, fun a b => pickAhead_iff,
    fun s up => ?_⟩
  · intro caller number may
    refine ⟨fun no => ?_, fun yes => ?_⟩
    · exact (exec_callReceived ha hf hl (hearCall_void no)).trans (congrArg _ (handOn_nil _ _))
    · exact exec_callReceived ha hf hl (hearCall_offers (s := s.heard) yes)
  · intro mine
    refine ⟨fun none => ?_, fun r call other => ?_, fun r call own => ?_⟩
    · exact exec_offerReceived ha hf hl (hearOffer_none none)
    · exact exec_offerReceived ha hf hl (hearOffer_other call other)
    · exact exec_offerReceived ha hf hl (hearOffer_enters call own)
  · intro others kept
    have keeps : kept = (rankOffer o others).take 8 := enterOffer_eq l o
    have long : (rankOffer o others).length = others.length + 1 := length_rankOffer_others o l
    clear_value kept
    subst keeps
    refine ⟨List.length_take_le _ _, fun ranked => (ranked_rankOffer_others ranked o).sublist (List.take_sublist _ _),
      fun nodup => (nodup_rankOffer_others nodup o).sublist ((List.take_sublist _ _).map _), (rankOffer o others).drop 8, ?_,
      fun few => ?_, fun many => ?_, fun ranked => ?_⟩
    · rw [List.take_append_drop]
      exact rankOffer_perm o others
    · exact List.drop_eq_nil_of_le (by omega)
    · rw [List.length_take, long]
      omega
    · have apart := ranked_rankOffer_others ranked o
      rw [Ranked, ← List.take_append_drop 8 (rankOffer o (othersThan o l)), List.pairwise_append] at apart
      exact apart.2.2
  · intro gone
    refine ⟨fun void => ?_, fun r call hs window => ⟨fun none more => ?_, fun none last => ?_, fun o rest first => ?_⟩,
      fun void => ?_, fun r call hs wait => ?_, fun void => ?_, fun hs timer => ?_⟩
    · exact congrArg Host.Outcome.next (run_cc_void up (offerWindowEnd_void void))
    · exact congrArg Host.Outcome.next (run_cc_quiet (m := .offerWindow) up
        ((offerWindowEnd_fails call hs window none).trans (failedAttempt_retries more hs)))
    · exact congrArg Host.Outcome.next (run_cc (m := .offerWindow) up
        ((offerWindowEnd_fails call hs window none).trans (hs ▸ failedAttempt_ends last)))
    · have picks := offerWindowEnd_picks (s := s) call hs window first
      rw [pickMode_eq] at picks
      exact congrArg Host.Outcome.next (run_cc (m := .offerWindow) up picks)
    · exact congrArg Host.Outcome.next (run_cc_void up (retryWaitEnd_void void))
    · refine congrArg Host.Outcome.next ((run_cc (m := .retryWait) up
        ((retryWaitEnd_calls call hs wait).trans (sendCall_eq _ _ _))).trans ?_)
      exact handOn_offer _ _ (by decide)
    · refine congrArg Host.Outcome.next (run_cc_void up ((ccHandle_offerTimer s).trans (if_neg fun ⟨hs, timer⟩ => ?_)))
      exact void.elim (· hs) fun stopped => Option.not_isSome_iff_eq_none.mpr stopped timer
    · exact congrArg Host.Outcome.next (run_cc up
        ((ccHandle_offerTimer s).trans ((if_pos ⟨hs, timer⟩).trans (hs ▸ ccIdle_eq s.cc))))

end Sys2Proof.Machine
end

section
/-! SUPPORT. The pick taken, READY, the incoming set and the limits of the preparation (O43). -/

namespace Sys2Proof.Machine

/-! ### Frames of the preparation -/

section
variable {s : State} {h : Header} {p : List Byte} {d : Cc} {rs : List Report}

theorem exec_pickReceived (ha : Accepts s h) (hf : FromStation h) (hl : p.length = 4)
    (hm : hearPick s.cc s.heard h.sender.toNat (fieldAt p 0 1) (fieldAt p 1 1) (fieldAt p 2 1)
      (Mode.ofByte (byteAt p 3)) = (d, rs)) :
    exec (.pickReceived h p) s = .next (State.handOn { s.heard with cc := d } 2 rs) :=
  congrArg Host.Outcome.next (run_frame_cc ha hf rfl (beq_iff_eq.mpr hl) rfl hm)

/-- READY that passes R62. -/
theorem exec_readyReceived {r : CallRec} (ha : Accepts s h) (hf : FromStation h) (hl : p.length = 2)
    (hc : s.cc.call = some r) (ref : s.cc.takes s.cfg.station h.sender.toNat (fieldAt p 0 1) (fieldAt p 1 1) = true)
    (hm : takeReady s.cc s.heard r = (d, rs)) :
    exec (.readyReceived h p) s = .next (State.handOn { s.heard with cc := d } 2 rs) := by
  have taken : ccHandle (.readyFrame h.sender.toNat (fieldAt p 0 1) (fieldAt p 1 1)) s.heard = (d, rs) := by
    have call : s.heard.cc.call = some r := hc
    simp only [ccHandle, call]
    exact (if_pos ref).trans hm
  exact congrArg Host.Outcome.next (run_frame_cc ha hf rfl (beq_iff_eq.mpr hl) rfl taken)

theorem exec_readyReceived_void (ha : Accepts s h) (hf : FromStation h) (hl : p.length = 2)
    (other : ∀ r, s.cc.call = some r →
      s.cc.takes s.cfg.station h.sender.toNat (fieldAt p 0 1) (fieldAt p 1 1) = false) :
    exec (.readyReceived h p) s = .next s.heard := by
  have void : ccHandle (.readyFrame h.sender.toNat (fieldAt p 0 1) (fieldAt p 1 1)) s.heard = quiet s.cc := by
    simp only [ccHandle]
    split
    next r call => exact if_neg (ne_true_of_eq_false (other r call))
    · rfl
  exact congrArg Host.Outcome.next (run_frame_cc_void ha hf rfl (beq_iff_eq.mpr hl) rfl void)
end

/-! ### A PICK heard (R68, R72) -/

section
variable {c : Cc} {s : State} {r : IncRec} {sender caller number incoming : Nat} {mode : Mode}

theorem hearPick_named (h : c.inc = some r) (mine : c.state = .offered ∧ r.caller = caller ∧ r.number = number)
    (named : incoming = s.cfg.station) : hearPick c s sender caller number incoming mode =
      ({ c with
          state := .prepare, inc := some { r with mode := some mode }, offerTimer := none
          prepTimeout := some 150000 },
        enteringReports .offered .prepare ++ [.du .reqStart, .cc .checkReady]) := by
  obtain ⟨offered, -⟩ := id mine
  rw [← offered]
  simp only [hearPick, h, if_pos mine, named, decide_true, if_true]
  rfl

theorem hearPick_another (h : c.inc = some r) (mine : c.state = .offered ∧ r.caller = caller ∧ r.number = number)
    (named : incoming ≠ s.cfg.station) : hearPick c s sender caller number incoming mode = ccIdle c := by
  simp only [hearPick, h, if_pos mine, named, decide_false, Bool.false_eq_true, if_false]

/-- A station with no such offer out refuses a PICK that names it. -/
theorem hearPick_refuses
    (other : ∀ r, c.inc = some r → ¬ (c.state = .offered ∧ r.caller = caller ∧ r.number = number)) :
    hearPick c s sender caller number incoming mode =
      (c, if incoming = s.cfg.station then [abortFrame s sender caller number .notAvailable] else []) := by
  have answer : hearPick c s sender caller number incoming mode =
      if decide (incoming = s.cfg.station) = true then (c, [abortFrame s sender caller number .notAvailable])
      else quiet c := by
    unfold hearPick
    dsimp only
    split
    next r inc => exact if_neg (other r inc)
    · rfl
  rw [answer]
  simp only [decide_eq_true_eq]
  split <;> rfl

/-! ### READY at the calling station (R73, R77) -/

variable {q : CallRec}

theorem takeReady_void (h : c.state ≠ .prepare ∨ q.mode = none ∨ (q.mode = some .open' ∧ q.cause.waits s)) :
    takeReady c s q = quiet c := by
  unfold takeReady
  split
  · rfl
  next prepare =>
    rcases h.resolve_left prepare with none | ⟨open', waits⟩
    · rw [none]
    · rw [open']
      exact if_pos (waits_iff.mpr waits)

theorem takeReady_notes (hs : c.state = .prepare) (closed : q.mode = some .closed') :
    takeReady c s q = quiet { c with call := some { q with noted := true } } := by
  simp only [takeReady, hs, ne_eq, not_true_eq_false, if_false, closed]

/-- The open transition begins: STEP (OPENING), DEADBUS, and the set tripped (R77). -/
theorem takeReady_opens (hs : c.state = .prepare) (open' : q.mode = some .open') (now : ¬ q.cause.waits s) :
    takeReady c s q = ({ c with state := .deadbus, prepLimit := none, gapLimit := some 10000 },
      stepFrame s (q.incoming.getD 0) s.cfg.station q.number .opening :: enteringReports .prepare .deadbus ++
        [.du .reqTrip]) := by
  rw [← hs]
  simp only [takeReady, hs, ne_eq, not_true_eq_false, if_false, open', if_neg (mt waits_iff.mp now)]
  rfl

/-! ### The limits of the preparation (R71, R72) -/

theorem prepLimitEnd_void (h : c.call = none ∨ c.state ≠ .prepare ∨ c.prepLimit = none) :
    prepLimitEnd c s = quiet c := by
  unfold prepLimitEnd
  split
  next call =>
    refine if_neg fun ⟨prepare, running⟩ => ?_
    rcases h with none | other | stopped
    · cases none.symm.trans call
    · exact other prepare
    · exact Option.not_isSome_iff_eq_none.mpr stopped running
  · rfl

theorem prepLimitEnd_fails (h : c.call = some q) (hs : c.state = .prepare) (running : c.prepLimit.isSome = true)
    {d : Cc} {rs : List Report} (failed : failedAttempt c s q = (d, rs)) : prepLimitEnd c s =
      (d, abortFrame s (q.incoming.getD 0) s.cfg.station q.number .timeout :: rs) := by
  simp only [prepLimitEnd, h, hs, running, and_self, if_true, failed]
  rfl

theorem prepTimeoutEnd_void (h : c.inc = none ∨ c.state ≠ .prepare ∨ c.prepTimeout = none) :
    prepTimeoutEnd c s = quiet c := by
  unfold prepTimeoutEnd
  split
  next inc =>
    refine if_neg fun ⟨prepare, running⟩ => ?_
    rcases h with none | other | stopped
    · cases none.symm.trans inc
    · exact other prepare
    · exact Option.not_isSome_iff_eq_none.mpr stopped running
  · rfl

theorem prepTimeoutEnd_fails (h : c.inc = some r) (hs : c.state = .prepare) (running : c.prepTimeout.isSome = true) :
    prepTimeoutEnd c s = giveUpWith c s r .startFail := by
  simp only [prepTimeoutEnd, h, hs, running, and_self, if_true]

/-! ### The incoming set (R72, R74) -/

theorem sendReady_sent (h : r.readySent = true) : sendReady c s r = quiet c := if_pos h

theorem sendReady_closed (h : r.readySent = false) (closed : r.mode = some .closed') : sendReady c s r =
    ({ c with inc := some { r with readySent := true, joinAsked := true } },
      [refFrame s .ready r.caller r.caller r.number [], .du .reqJoin]) := by
  simp only [sendReady, h, Bool.false_eq_true, if_false, closed, decide_true, Bool.or_true, if_true]

theorem sendReady_open (h : r.readySent = false) (open' : r.mode ≠ some .closed') : sendReady c s r =
    ({ c with inc := some { r with readySent := true } }, [refFrame s .ready r.caller r.caller r.number []]) := by
  simp only [sendReady, h, Bool.false_eq_true, if_false, open', decide_false, Bool.or_false]

theorem prepareSet_ready (h : s.du.state = .ready) : prepareSet c s r = sendReady c s r := by
  simp only [prepareSet, h]

theorem prepareSet_joined (h : s.du.state = .onbus) (closed : r.mode = some .closed') : prepareSet c s r =
    ({ c with state := .parallel, prepTimeout := none },
      stepFrame s r.caller r.caller r.number .closed' :: enteringReports c.state .parallel) := by
  simp only [prepareSet, h, closed, if_true, ccEnter_eq]

theorem prepareSet_waits (h : (s.du.state = .onbus ∧ r.mode ≠ some .closed') ∨
    (s.du.state ≠ .ready ∧ s.du.state ≠ .onbus ∧ s.du.state ≠ .fault)) : prepareSet c s r = quiet c := by
  unfold prepareSet
  rcases h with ⟨onbus, open'⟩ | ⟨noReady, noBus, noFault⟩
  · simp only [onbus, if_neg open']
  · split
    · exact absurd ‹_› noReady
    · exact absurd ‹_› noBus
    · exact absurd ‹_› noFault
    all_goals rfl

theorem prepareSet_fails (h : s.du.state = .fault) : prepareSet c s r = giveUpWith c s r .startFail := by
  simp only [prepareSet, h]

/-- In PREPARE the own set is tested at entry and at each change of it. -/
theorem ccHandle_prepareSet {m : CcMsg} (hc : s.cc.call = none) (hi : s.cc.inc = some r) (hs : s.cc.state = .prepare)
    (hm : m = .checkReady ∨ ∃ before after, m = .setChanged before after) :
    ccHandle m s = prepareSet s.cc s r := by
  rcases hm with rfl | ⟨b, a, rfl⟩
  · simp only [ccHandle, checkReady, hi, hs, if_true]
  · simp only [ccHandle, setChanged, hc, hi, incomingSet, hs]

theorem ccStartFail_fails (h : c.inc = some r) (hs : c.state = .prepare) :
    ccStartFail c s = giveUpWith c s r .startFail := by
  simp only [ccStartFail, h, if_pos hs]

theorem ccJoinFail_fails (h : c.inc = some r) (hs : c.state = .prepare) (asked : r.joinAsked = true) :
    ccJoinFail c s = giveUpWith c s r .joinFail := by
  simp only [ccJoinFail, h, if_pos (And.intro hs asked)]

theorem ccStartFail_void (hs : c.state ≠ .prepare) : ccStartFail c s = quiet c := by
  unfold ccStartFail
  split
  · exact if_neg hs
  · rfl

theorem ccJoinFail_void (h : c.inc = some r) (other : c.state ≠ .prepare ∨ r.joinAsked = false) :
    ccJoinFail c s = quiet c := by
  simp only [ccJoinFail, h]
  exact if_neg fun ⟨prepare, asked⟩ => other.elim (· prepare) (by simp only [asked, Bool.true_eq_false, imp_self])

theorem checkReady_void (hs : c.state ≠ .prepare) : checkReady c s = quiet c := by
  unfold checkReady
  split
  · exact if_neg hs
  · rfl

/-- An OFFERED station ends its offer as its set faults or goes ONBUS (R68). -/
theorem setChanged_offered {before after : SetState} (hc : c.call = none) (hi : c.inc = some r)
    (hs : c.state = .offered) : setChanged c s before after =
      if after = .fault ∨ after = .onbus then ccIdle c else quiet c := by
  simp only [setChanged, hc, hi, incomingSet, hs]
end

/-! ### O43, clause by clause -/

/-- Settles O43: PICK by whom it names, READY by the mode, the limits by whether they run, the incoming set by its
state. -/
theorem preparation : Obligations.Preparation := by
  refine ⟨fun h p s ha hf hl => ?_, fun h p s ha hf hl => ?_, fun s up => ?_, fun s r call inc => ?_⟩
  · intro caller number named mine
    refine ⟨fun r inc own yes => ?_, fun r inc own no => ?_, fun other => ⟨fun yes => ?_, fun no => ?_⟩⟩
    · exact exec_pickReceived ha hf hl (hearPick_named (s := s.heard) inc own yes)
    · obtain ⟨offered, -⟩ := id own
      exact exec_pickReceived ha hf hl
        ((hearPick_another (s := s.heard) inc own no).trans (offered ▸ ccIdle_eq s.cc))
    · refine (exec_pickReceived ha hf hl (hearPick_refuses (s := s.heard) other)).trans ?_
      rw [if_pos (show fieldAt p 2 1 = s.heard.cfg.station from yes)]
      exact congrArg Host.Outcome.next (handOn_offer _ _ (by decide))
    · refine (exec_pickReceived ha hf hl (hearPick_refuses (s := s.heard) other)).trans ?_
      rw [if_neg (show fieldAt p 2 1 ≠ s.heard.cfg.station from no)]
      exact congrArg Host.Outcome.next (handOn_nil _ _)
  · intro mine
    have taken {r : CallRec} (hr : s.cc.call = some r) :
        s.cc.takes s.cfg.station h.sender.toNat (fieldAt p 0 1) (fieldAt p 1 1) = true ↔ mine r :=
      takes_outgoing hr hf.2.1
    refine ⟨fun none => ?_, fun r call void => ?_, fun r call own prepare closed => ?_,
      fun r call own prepare open' now => ?_⟩
    · exact exec_readyReceived_void ha hf hl fun r hr => nomatch none.symm.trans hr
    · by_cases own : mine r
      · refine (exec_readyReceived ha hf hl call ((taken call).mpr own) (takeReady_void (s := s.heard) ?_)).trans
          (congrArg _ (handOn_nil _ _))
        exact void.resolve_left (not_not_intro own)
      · refine exec_readyReceived_void ha hf hl fun q hq => ?_
        cases call.symm.trans hq
        exact Bool.eq_false_of_not_eq_true (mt (taken call).mp own)
    · exact (exec_readyReceived ha hf hl call ((taken call).mpr own) (takeReady_notes prepare closed)).trans
        (congrArg _ (handOn_nil _ _))
    · have opens := takeReady_opens (s := s.heard) prepare open' (not_waits_iff.mpr now)
      rw [own.2.2] at opens
      exact exec_readyReceived ha hf hl call ((taken call).mpr own) opens
  · refine ⟨fun void => ?_, fun r call prepare running => ?_, fun void => ?_, fun r inc prepare running => ?_⟩
    · exact congrArg Host.Outcome.next (run_cc_void up (prepLimitEnd_void void))
    · intro told
      have noCall : s.cc.state ≠ .call := by rw [prepare]; decide
      refine ⟨fun more => ?_, fun last => ?_⟩
      · exact congrArg Host.Outcome.next (run_cc (m := .prepLimit) up
          (prepLimitEnd_fails call prepare running (prepare ▸ failedAttempt_returns more noCall)))
      · exact congrArg Host.Outcome.next (run_cc (m := .prepLimit) up
          (prepLimitEnd_fails call prepare running (prepare ▸ failedAttempt_ends last)))
    · exact congrArg Host.Outcome.next (run_cc_void up (prepTimeoutEnd_void void))
    · exact congrArg Host.Outcome.next (run_cc (m := .prepTimeout) up
        ((prepTimeoutEnd_fails inc prepare running).trans (prepare ▸ giveUpWith_eq s.cc s r .startFail)))
  · intro given ready aborted
    have abort (prepare : s.cc.state = .prepare) {m : CcMsg} {why : AbortReason}
        (fails : ccHandle m s = giveUpWith s.cc s r why) : given m = aborted why :=
      deliver_cc_of (fails.trans (prepare ▸ giveUpWith_eq s.cc s r why))
    refine ⟨fun prepare m hm => ?_, fun prepare => ⟨?_, fun asked => ?_, fun free => ?_⟩, fun other => ⟨?_, ?_, ?_⟩,
      fun offered before after => ⟨fun ends => ?_, fun noFault noBus => ?_⟩⟩
    · have tested := ccHandle_prepareSet call inc prepare hm
      refine ⟨fun able sent => ?_, fun able unsent closed => ?_, fun able unsent open' => ?_, fun bus closed => ?_,
        fun bus open' => ?_, fun fault => ?_, fun h1 h2 h3 => ?_⟩
      · exact deliver_cc_void (tested.trans ((prepareSet_ready able).trans (sendReady_sent sent)))
      · exact deliver_cc_of (tested.trans ((prepareSet_ready able).trans (sendReady_closed unsent closed)))
      · exact deliver_cc_of (tested.trans ((prepareSet_ready able).trans (sendReady_open unsent open')))
      · exact deliver_cc_of (tested.trans (prepare ▸ prepareSet_joined bus closed))
      · exact deliver_cc_void (tested.trans (prepareSet_waits (.inl ⟨bus, open'⟩)))
      · exact abort prepare (tested.trans (prepareSet_fails fault))
      · exact deliver_cc_void (tested.trans (prepareSet_waits (.inr ⟨h1, h2, h3⟩)))
    · exact abort prepare (ccStartFail_fails inc prepare)
    · exact abort prepare (ccJoinFail_fails inc prepare asked)
    · exact deliver_cc_void (ccJoinFail_void inc (.inr free))
    · exact deliver_cc_void (checkReady_void other)
    · exact deliver_cc_void (ccStartFail_void other)
    · exact deliver_cc_void (ccJoinFail_void inc (.inl other))
    · exact deliver_cc_of ((setChanged_offered call inc offered).trans
        ((if_pos ends).trans (offered ▸ ccIdle_eq s.cc)))
    · exact deliver_cc_void ((setChanged_offered call inc offered).trans (if_neg fun h => h.elim noFault noBus))

end Sys2Proof.Machine
end

section
/-! SUPPORT. The partner's frames, its STATE by Table 4-7, and its loss. -/

namespace Sys2Proof.Machine

/-! ### The frames that carry a reference (R62) -/

section
variable {s : State} {h : Header} {p : List Byte} {d : Cc} {rs : List Report}

/-- A received frame carries the reference of the call held, and comes from the partner. -/
def Refers (s : State) (h : Header) (p : List Byte) : Prop :=
  s.cc.takes s.cfg.station h.sender.toNat (fieldAt p 0 1) (fieldAt p 1 1) = true

theorem refers_outgoing {r : CallRec} (hf : FromStation h) (hc : s.cc.call = some r) : Refers s h p ↔
    fieldAt p 0 1 = s.cfg.station ∧ fieldAt p 1 1 = r.number ∧ r.incoming = some h.sender.toNat :=
  takes_outgoing hc hf.2.1

theorem refers_incoming {r : IncRec} (hc : s.cc.call = none) (hi : s.cc.inc = some r) : Refers s h p ↔
    fieldAt p 0 1 = r.caller ∧ fieldAt p 1 1 = r.number ∧ h.sender.toNat = r.caller :=
  takes_incoming hc hi

/-- A frame that names no call the station is in. -/
theorem not_refers (hf : FromStation h)
    (out : ∀ r, s.cc.call = some r →
      ¬ (fieldAt p 0 1 = s.cfg.station ∧ fieldAt p 1 1 = r.number ∧ r.incoming = some h.sender.toNat))
    (inc : ∀ r, s.cc.inc = some r →
      ¬ (fieldAt p 0 1 = r.caller ∧ fieldAt p 1 1 = r.number ∧ h.sender.toNat = r.caller)) : ¬ Refers s h p := by
  cases hc : s.cc.call with
  | some r => exact mt (refers_outgoing hf hc).mp (out r hc)
  | none =>
      cases hi : s.cc.inc with
      | some r => exact mt (refers_incoming hc hi).mp (inc r hi)
      | none => exact ne_true_of_eq_false (takes_idle hc hi _ _ _ _)

theorem exec_stepReceived (ha : Accepts s h) (hf : FromStation h) (hl : p.length = 3) (ref : Refers s h p)
    (hm : takeStep s.cc s.heard (stepOf (byteAt p 2)) = (d, rs)) :
    exec (.stepReceived h p) s = .next (State.handOn { s.heard with cc := d } 2 rs) :=
  congrArg Host.Outcome.next (run_frame_cc ha hf rfl (beq_iff_eq.mpr hl) rfl ((if_pos ref).trans hm))

theorem exec_stepReceived_void (ha : Accepts s h) (hf : FromStation h) (hl : p.length = 3) (no : ¬ Refers s h p) :
    exec (.stepReceived h p) s = .next s.heard :=
  congrArg Host.Outcome.next (run_frame_cc_void ha hf rfl (beq_iff_eq.mpr hl) rfl (if_neg no))

theorem exec_endReceived (ha : Accepts s h) (hf : FromStation h) (hl : p.length = 3) (ref : Refers s h p)
    (hm : takeEnd s.cc = (d, rs)) :
    exec (.endReceived h p) s = .next (State.handOn { s.heard with cc := d } 2 rs) :=
  congrArg Host.Outcome.next (run_frame_cc ha hf rfl (beq_iff_eq.mpr hl) rfl ((if_pos ref).trans hm))

theorem exec_endReceived_void (ha : Accepts s h) (hf : FromStation h) (hl : p.length = 3) (no : ¬ Refers s h p) :
    exec (.endReceived h p) s = .next s.heard :=
  congrArg Host.Outcome.next (run_frame_cc_void ha hf rfl (beq_iff_eq.mpr hl) rfl (if_neg no))

/-- An ABORT is a loss of the partner with its reason kept (R82). -/
theorem exec_abortReceived (ha : Accepts s h) (hf : FromStation h) (hl : p.length = 3) (ref : Refers s h p)
    (hm : partnerGone { s.cc with abortReason := some (byteAt p 2) } s.heard = (d, rs)) :
    exec (.abortReceived h p) s = .next (State.handOn { s.heard with cc := d } 2 rs) :=
  congrArg Host.Outcome.next (run_frame_cc ha hf rfl (beq_iff_eq.mpr hl) rfl ((if_pos ref).trans hm))

theorem exec_abortReceived_void (ha : Accepts s h) (hf : FromStation h) (hl : p.length = 3) (no : ¬ Refers s h p) :
    exec (.abortReceived h p) s = .next s.heard :=
  congrArg Host.Outcome.next (run_frame_cc_void ha hf rfl (beq_iff_eq.mpr hl) rfl (if_neg no))

theorem exec_holdReceived (ha : Accepts s h) (hf : FromStation h) (hl : p.length = 2) (ref : Refers s h p)
    (hm : takeHold s.cc s.heard = (d, rs)) :
    exec (.holdReceived h p) s = .next (State.handOn { s.heard with cc := d } 2 rs) :=
  congrArg Host.Outcome.next (run_frame_cc ha hf rfl (beq_iff_eq.mpr hl) rfl ((if_pos ref).trans hm))

theorem exec_holdReceived_void (ha : Accepts s h) (hf : FromStation h) (hl : p.length = 2) (no : ¬ Refers s h p) :
    exec (.holdReceived h p) s = .next s.heard :=
  congrArg Host.Outcome.next (run_frame_cc_void ha hf rfl (beq_iff_eq.mpr hl) rfl (if_neg no))
end

/-! ### The entries both a frame and a STATE lead to (R74 to R78) -/

/-- The CC in outgoing RELEASE (R77, R79). -/
def Cc.released (c : Cc) : Cc := { c with state := .release, gapLimit := none, prepLimit := none }

/-- The CC in incoming RELEASE (R76, R78). -/
def Cc.releasing (c : Cc) : Cc :=
  { c with state := .release, gapLimit := none, prepTimeout := none, endWait := some 10000 }

section
variable {c : Cc} {s : State} {q : CallRec} {r : IncRec}

theorem enterOutgoingRelease_eq (c : Cc) : enterOutgoingRelease c =
    (c.released, enteringReports c.state .release ++ [.cc .checkRelease]) := rfl

theorem enterIncomingRelease_eq (c : Cc) : enterIncomingRelease c =
    (c.releasing, enteringReports c.state .release) := rfl

theorem enterOutgoingParallel_eq (c : Cc) : enterOutgoingParallel c =
    ({ c with state := .parallel, prepLimit := none }, enteringReports c.state .parallel ++ [.du .reqRamp]) := rfl

theorem enterIncomingDeadbus_eq (c : Cc) (r : IncRec) : enterIncomingDeadbus c r =
    ({ c with
        state := .deadbus, inc := some { r with joinAsked := false }, prepTimeout := none, gapLimit := some 10000 },
      enteringReports c.state .deadbus ++ [.cc .checkDeadbus]) := rfl

/-! ### STEP (R74 to R78) -/

theorem takeClosed_prepare (hs : c.state = .prepare) (closed : q.mode = some .closed') :
    takeClosed c s q = enterOutgoingParallel c := by
  simp only [takeClosed, hs, if_pos closed]

theorem takeClosed_deadbus (hs : c.state = .deadbus) : takeClosed c s q =
    (c.released, endFrame s (q.incoming.getD 0) s.cfg.station q.number .normal :: enteringReports .deadbus .release ++
      [.cc .checkRelease]) := by
  rw [← hs]
  simp only [takeClosed, hs, enterOutgoingRelease_eq]
  rfl

theorem takeClosed_release (hs : c.state = .release) :
    takeClosed c s q = (c, [endFrame s (q.incoming.getD 0) s.cfg.station q.number .normal]) := by
  simp only [takeClosed, hs]
  rfl

theorem stepOf_closed {b : Byte} (h : b = 1) : stepOf b = some .closed' := by rw [h]; rfl

theorem stepOf_opening {b : Byte} (h : b = 2) : stepOf b = some .opening := by rw [h]; rfl

theorem stepOf_opened {b : Byte} (h : b = 3) : stepOf b = some .opened := by rw [h]; rfl

variable {k : Option StepKind}

theorem takeStep_closed (hk : k = some .closed') (hc : c.call = some q) : takeStep c s k = takeClosed c s q := by
  simp only [takeStep, hk, hc, if_true]

theorem takeStep_opening (hk : k = some .opening) (hc : c.call = none) (hi : c.inc = some r) (hs : c.state = .prepare)
    (open' : r.mode = some .open') : takeStep c s k = enterIncomingDeadbus c r := by
  simp only [takeStep, hk, hc, hi, hs, if_pos open']

theorem takeStep_opened (hk : k = some .opened) (hc : c.call = none) (hi : c.inc = some r) (hs : c.state = .parallel) :
    takeStep c s k = enterIncomingRelease c := by
  simp only [takeStep, hk, hc, hi, hs]

/-! ### END and HOLD (R76, R80, R82) -/

theorem takeEnd_ends (hi : c.inc = some r) (hs : c.state = .parallel ∨ c.state = .release) :
    takeEnd c = ccIdle c := if_pos ⟨by rw [hi]; rfl, hs⟩

theorem takeHold_offered (hi : c.inc = some r) (hs : c.state = .offered) : takeHold c s = ccIdle c := by
  simp only [takeHold, hi, Option.isNone_some, Bool.false_eq_true, if_false, hs]

theorem takeHold_prepare (hi : c.inc = some r) (hs : c.state = .prepare) : takeHold c s = giveUp c s := by
  simp only [takeHold, hi, Option.isNone_some, Bool.false_eq_true, if_false, hs]

/-! ### The partner gone (R75, R83, Table 4-7) -/

theorem partnerGone_prepare (hc : c.call = some q) (hs : c.state = .prepare) :
    partnerGone c s = failedAttempt c s q := by
  simp only [partnerGone, hc, hs]

/-- Before any TRIP the ramp is taken back. -/
theorem partnerGone_parallel_early (hc : c.call = some q) (hs : c.state = .parallel) (early : q.outcome = none) :
    partnerGone c s = ({ c.idled with partnerLost := true },
      [.du .reqResume] ++ enteringReports .parallel .idle ++ [.cc .serve]) := by
  rw [← hs]
  simp only [partnerGone, hc, hs, parallelLoss, early, Option.isSome_none, Bool.false_eq_true, if_false, ccIdle_eq]
  rfl

theorem partnerGone_parallel_late (hc : c.call = some q) (hs : c.state = .parallel)
    (late : q.outcome.isSome = true) :
    partnerGone c s = quiet { c with call := some { q with lostLate := true } } := by
  simp only [partnerGone, hc, hs, parallelLoss, late, if_true]

theorem partnerGone_deadbus (hc : c.call = some q) (hs : c.state = .deadbus) : partnerGone c s =
    (c.released, enteringReports .deadbus .release ++ [.cc .checkRelease]) := by
  rw [← hs]
  simp only [partnerGone, hc, hs, enterOutgoingRelease_eq]

theorem partnerGone_release (hc : c.call = some q) (hs : c.state = .release) : partnerGone c s = quiet c := by
  simp only [partnerGone, hc, hs]

/-- An incoming station whose set is not to be treated. -/
theorem partnerGone_idle (hc : c.call = none) (hi : c.inc = some r)
    (hs : c.state = .offered ∨ c.state = .parallel ∨ c.state = .release) :
    partnerGone c s = (c.idled, enteringReports c.state .idle ++ [.cc .serve]) := by
  rcases hs with hs | hs | hs <;> simp only [partnerGone, hc, hi, hs, ccIdle_eq]

theorem partnerGone_giveUp (hc : c.call = none) (hi : c.inc = some r)
    (hs : c.state = .prepare ∨ c.state = .deadbus) :
    partnerGone c s = (c.idled, treatSet s ++ enteringReports c.state .idle ++ [.cc .serve]) := by
  rw [← giveUp_eq]
  rcases hs with hs | hs <;> simp only [partnerGone, hc, hi, hs]
end

/-! ### The partner check (R83, Table 4-7) -/

/-- The states of the partner a row of Table 4-7 accepts, by the own side (`true` outgoing) and state. -/
def acceptedStates : Bool → Handover → List Handover
  | false, .offered => [.call, .prepare]
  | false, .prepare => [.prepare, .deadbus]
  | false, .parallel => [.prepare, .parallel, .release]
  | false, .deadbus => [.prepare, .deadbus, .release]
  | false, .release => [.parallel, .deadbus]
  | true, .prepare => [.offered, .prepare, .parallel]
  | true, .parallel => [.prepare, .parallel, .release]
  | true, .deadbus => [.prepare, .deadbus, .release]
  | _, _ => []

theorem acceptedShown_iff {outgoing : Bool} {own : Handover} (row : checkedRow outgoing own = true)
    (shown : Handover) : acceptedShown outgoing own shown = true ↔ shown ∈ acceptedStates outgoing own := by
  revert row
  cases outgoing <;> cases own <;> cases shown <;> decide

/-- A station of the peer table is the partner, in a row of Table 4-7. -/
structure PartnerRow (s : State) (n : Nat) (e : PeerEntry) (outgoing : Bool) (own : Handover) : Prop where
  partner : s.cc.partner = n
  found : s.pt.find n = some e
  side : s.cc.call.isSome = outgoing
  state : s.cc.state = own
  row : checkedRow outgoing own = true

namespace PartnerRow

variable {s : State} {n : Nat} {e : PeerEntry} {outgoing : Bool} {own : Handover} {d : Cc} {rs : List Report}

theorem hearPartner_eq (h : PartnerRow s n e outgoing own) : hearPartner s.cc s n =
    if e.fields.handover ∈ acceptedStates outgoing own ∧ e.fields.partner = s.cfg.station
    then takeShown s.cc s e.fields else partnerGone s.cc s := by
  obtain ⟨partner, found, side, state, row⟩ := h
  have checked : ¬ (s.cc.partner ≠ n ∨ (!checkedRow s.cc.call.isSome s.cc.state) = true) := by
    simp only [partner, side, state, row, ne_eq, not_true_eq_false, Bool.not_true, Bool.false_eq_true, or_self,
      not_false_eq_true]
  rw [hearPartner, if_neg checked]
  simp only [found, side, state, Bool.and_eq_true, beq_iff_eq, acceptedShown_iff row]

/-- What the row accepts is taken. -/
theorem shown {st : Handover} (h : PartnerRow s n e outgoing own) (shows : e.fields.handover = st)
    (accepted : st ∈ acceptedStates outgoing own) (ours : e.fields.partner = s.cfg.station)
    (took : takeShown s.cc s e.fields = (d, rs)) : deliver (.cc (.partnerState n)) s = ({ s with cc := d }, rs) :=
  deliver_cc_of (h.hearPartner_eq.trans ((if_pos ⟨shows ▸ accepted, ours⟩).trans took))

/-- The loss of the partner and a STATE the row does not accept end the relation alike. -/
theorem ends (h : PartnerRow s n e outgoing own) (gone : partnerGone s.cc s = (d, rs)) :
    deliver (.cc (.peerLost n)) s = ({ s with cc := d }, rs) ∧
      (e.fields.handover ∉ acceptedStates outgoing own ∨ ¬ e.fields.partner = s.cfg.station →
        deliver (.cc (.partnerState n)) s = ({ s with cc := d }, rs)) := by
  have lost : ccPeerLost s.cc s n = partnerGone s.cc s :=
    if_pos ⟨h.partner, by rw [h.side, h.state]; exact h.row⟩
  refine ⟨deliver_cc_of (lost.trans gone), fun other => deliver_cc_of (h.hearPartner_eq.trans ((if_neg ?_).trans gone))⟩
  exact fun ⟨accepted, ours⟩ => other.elim (· accepted) (· ours)

end PartnerRow

section
variable {c : Cc} {s : State} {q : CallRec} {r : IncRec} {f : PeerFields}

theorem hearPartner_unchecked {n : Nat} (h : checkedRow c.call.isSome c.state = false) :
    hearPartner c s n = quiet c := if_pos (.inr (by rw [h]; rfl))

/-! ### A STATE taken at the incoming station -/

theorem takeShown_still (hc : c.call = none) (hi : c.inc = some r) (hs : c.state = .offered ∨ c.state = .release) :
    takeShown c s f = quiet c := by
  rcases hs with hs | hs <;> simp only [takeShown, hc, hi, hs]

theorem takeShown_preparing (hc : c.call = none) (hi : c.inc = some r) (hs : c.state = .prepare)
    (ho : f.handover = .prepare) : takeShown c s f = quiet c := by
  simp only [takeShown, hc, hi, hs, ho]

/-- The caller in DEADBUS is STEP (OPENING). -/
theorem takeShown_opening (hc : c.call = none) (hi : c.inc = some r) (hs : c.state = .prepare)
    (ho : f.handover = .deadbus) :
    takeShown c s f = if r.mode = some .open' then enterIncomingDeadbus c r else quiet c := by
  simp only [takeShown, hc, hi, hs, ho]

theorem takeShown_parallel (hc : c.call = none) (hi : c.inc = some r) (hs : c.state = .parallel)
    (ho : f.handover = .prepare ∨ f.handover = .parallel) : takeShown c s f = quiet c := by
  rcases ho with ho | ho <;> simp only [takeShown, hc, hi, hs, ho]

/-- The caller in RELEASE is STEP (OPENED). -/
theorem takeShown_opened (hc : c.call = none) (hi : c.inc = some r) (hs : c.state = .parallel)
    (ho : f.handover = .release) : takeShown c s f = enterIncomingRelease c := by
  simp only [takeShown, hc, hi, hs, ho]

theorem takeShown_deadbus (hc : c.call = none) (hi : c.inc = some r) (hs : c.state = .deadbus) :
    takeShown c s f = checkDeadbus c s := by
  simp only [takeShown, hc, hi, hs]

/-! ### A STATE taken at the calling station -/

theorem takeShown_out_offered (hc : c.call = some q) (hs : c.state = .prepare) (ho : f.handover = .offered) :
    takeShown c s f = quiet c := by
  simp only [takeShown, hc, hs, ho]

/-- A READY set of the incoming station is its READY. -/
theorem takeShown_out_ready (hc : c.call = some q) (hs : c.state = .prepare) (ho : f.handover = .prepare) :
    takeShown c s f = if f.setState = .ready then takeReady c s q else quiet c := by
  simp only [takeShown, hc, hs, ho]

/-- A set on the bus in PARALLEL is its STEP (CLOSED). -/
theorem takeShown_out_joined (hc : c.call = some q) (hs : c.state = .prepare) (ho : f.handover = .parallel)
    (bus : f.onBus = true) : takeShown c s f = takeClosed c s q := by
  simp only [takeShown, hc, hs, ho, bus, if_true]

theorem takeShown_out_parallel (hc : c.call = some q) (hs : c.state = .parallel) : takeShown c s f = quiet c := by
  simp only [takeShown, hc, hs]

theorem takeShown_out_deadbus (hc : c.call = some q) (hs : c.state = .deadbus)
    (ho : f.handover = .prepare ∨ f.handover = .deadbus) : takeShown c s f = quiet c := by
  rcases ho with ho | ho <;> simp only [takeShown, hc, hs, ho]

/-- A set on the bus in RELEASE is its STEP (CLOSED). -/
theorem takeShown_out_release (hc : c.call = some q) (hs : c.state = .deadbus) (ho : f.handover = .release) :
    takeShown c s f = if f.onBus then takeClosed c s q else quiet c := by
  simp only [takeShown, hc, hs, ho]
end

end Sys2Proof.Machine
end

section
/-! SUPPORT. The transitions, the limits and the own set's changes (O44). -/

namespace Sys2Proof.Machine

/-! ### The gap limit and the end wait (R76 to R78) -/

section
variable {c : Cc} {s : State} {q : CallRec} {r : IncRec}

theorem gapLimitEnd_void (h : c.state ≠ .deadbus ∨ c.gapLimit = none) : gapLimitEnd c s = quiet c :=
  if_pos (h.imp_right Option.isNone_iff_eq_none.mpr)

theorem gapLimitEnd_runs (hs : c.state = .deadbus) (running : c.gapLimit.isSome = true) :
    ¬ (c.state ≠ .deadbus ∨ c.gapLimit.isNone = true) := by
  simp only [hs, ne_eq, not_true_eq_false, Option.isNone_eq_false_iff.mpr running, Bool.false_eq_true, or_self,
    not_false_eq_true]

theorem gapLimitEnd_outgoing (hc : c.call = some q) (hs : c.state = .deadbus) (running : c.gapLimit.isSome = true) :
    gapLimitEnd c s = enterOutgoingRelease c := by
  rw [gapLimitEnd, if_neg (gapLimitEnd_runs hs running)]
  simp only [hc]

theorem gapLimitEnd_incoming (hc : c.call = none) (hi : c.inc = some r) (hs : c.state = .deadbus)
    (running : c.gapLimit.isSome = true) : gapLimitEnd c s = giveUpWith c s r .gap := by
  rw [gapLimitEnd, if_neg (gapLimitEnd_runs hs running)]
  simp only [hc, hi]

theorem ccHandle_endWait (s : State) : ccHandle .endWait s =
    if s.cc.state = .release ∧ s.cc.endWait.isSome then ccIdle s.cc else quiet s.cc := rfl

/-! ### The outgoing set changes (R75, R77, R79, R84) -/

variable {b a : SetState}

theorem setChanged_outgoing (hc : c.call = some q) : setChanged c s b a = outgoingSet c s q b a := by
  simp only [setChanged, hc]

theorem outgoingSet_early (hs : c.state = .hold ∨ c.state = .call ∨ c.state = .prepare) :
    outgoingSet c s q b a = if b = .onbus ∧ a ≠ .onbus then dropCall c s q .offBus else quiet c := by
  rcases hs with hs | hs | hs <;> simp only [outgoingSet, hs]

/-- The set is off the bus: END with the ramp's outcome. -/
theorem outgoingSet_off (hs : c.state = .parallel) (ha : a = .cooling ∨ a = .stopped) : outgoingSet c s q b a =
    ({ c.released with partnerLost := c.partnerLost || q.lostLate },
      [endFrame s (q.incoming.getD 0) s.cfg.station q.number (q.outcome.getD (unstatedOutcome q.number))] ++
        enteringReports .parallel .release ++ [.cc .checkRelease]) := by
  rw [← hs]
  rcases ha with rfl | rfl <;> simp only [outgoingSet, hs, parallelSet] <;> rfl

theorem outgoingSet_fault (hs : c.state = .parallel) : outgoingSet c s q b .fault =
    (c.idled, [endFrame s (q.incoming.getD 0) s.cfg.station q.number .fault] ++ enteringReports c.state .idle ++
      [.cc .serve]) := by
  simp only [outgoingSet, hs, parallelSet, ccIdle_eq]
  rfl

theorem outgoingSet_parallel_still (hs : c.state = .parallel) (h1 : a ≠ .cooling) (h2 : a ≠ .stopped)
    (h3 : a ≠ .fault) : outgoingSet c s q b a = quiet c := by
  simp only [outgoingSet, hs]
  cases a
  case cooling => exact absurd rfl h1
  case stopped => exact absurd rfl h2
  case fault => exact absurd rfl h3
  all_goals rfl

theorem outgoingSet_deadbus (hs : c.state = .deadbus) : outgoingSet c s q b a =
    quiet (if a = .onbus ∨ a = .rampdown then c else { c with call := some { q with leftBus := true } }) := by
  simp only [outgoingSet, hs]

theorem outgoingSet_release (hs : c.state = .release) :
    outgoingSet c s q b a = if a ≠ .cooling then ccIdle c else quiet c := by
  simp only [outgoingSet, hs]

theorem checkSet_eq (hc : c.call = some q) : checkSet c s =
    if c.state = .prepare ∧ s.du.state ≠ .onbus then dropCall c s q .offBus else quiet c := by
  simp only [checkSet, hc]

theorem checkRelease_eq (hc : c.call = some q) : checkRelease c s =
    if c.state = .release ∧ s.du.state ≠ .cooling ∧ (s.du.state ≠ .onbus ∨ q.leftBus = true) then ccIdle c
    else quiet c := by
  simp only [checkRelease, hc]

/-! ### The ramp and the trip (R74, R75, R77) -/

theorem ccTripIssued_parallel (hc : c.call = some q) (hs : c.state = .parallel) (o : EndOutcome) :
    ccTripIssued c s o = ({ c with call := some { q with outcome := some o } },
      [stepFrame s (q.incoming.getD 0) s.cfg.station q.number .opened]) := by
  simp only [ccTripIssued, hc, if_pos hs]
  rfl

theorem ccTripIssued_void (hs : c.state ≠ .parallel) (o : EndOutcome) : ccTripIssued c s o = quiet c := by
  unfold ccTripIssued
  split
  · exact if_neg hs
  · rfl

theorem ccRampAbandoned_parallel (hc : c.call = some q) (hs : c.state = .parallel) : ccRampAbandoned c s =
    ({ c.idled with partnerLost := true },
      [endFrame s (q.incoming.getD 0) s.cfg.station q.number .abandoned] ++ enteringReports c.state .idle ++
        [.cc .serve]) := by
  simp only [ccRampAbandoned, hc, if_pos hs, ccIdle_eq]
  rfl

theorem ccRampAbandoned_void (hs : c.state ≠ .parallel) : ccRampAbandoned c s = quiet c := by
  unfold ccRampAbandoned
  split
  · exact if_neg hs
  · rfl

theorem ccRampRefused_parallel (hc : c.call = some q) (hs : c.state = .parallel) : ccRampRefused c s =
    (c.idled, [abortFrame s (q.incoming.getD 0) s.cfg.station q.number .offBus] ++ enteringReports c.state .idle ++
      [.cc .serve]) := by
  simp only [ccRampRefused, hc, if_pos hs, ccIdle_eq]
  rfl

theorem ccRampRefused_void (hs : c.state ≠ .parallel) : ccRampRefused c s = quiet c := by
  unfold ccRampRefused
  split
  · exact if_neg hs
  · rfl

theorem ccTripFail_deadbus (hc : c.call = some q) (hs : c.state = .deadbus) : ccTripFail c s =
    (c.idled, [abortFrame s (q.incoming.getD 0) s.cfg.station q.number .tripFail] ++ enteringReports c.state .idle ++
      [.cc .serve]) := by
  simp only [ccTripFail, hc, if_pos hs, ccIdle_eq]
  rfl

theorem ccTripFail_void (hs : c.state ≠ .deadbus) : ccTripFail c s = quiet c := by
  unfold ccTripFail
  split
  · exact if_neg hs
  · rfl

/-! ### The incoming set changes (R76, R78) -/

theorem setChanged_incoming (hc : c.call = none) (hi : c.inc = some r) :
    setChanged c s b a = incomingSet c s r a := by
  simp only [setChanged, hc, hi]

theorem incomingSet_parallel_on (hs : c.state = .parallel) (ha : a = .onbus ∨ a = .rampdown) :
    incomingSet c s r a = quiet c := by
  simp only [incomingSet, hs, if_pos ha]

theorem incomingSet_parallel_off (hs : c.state = .parallel) (ha : ¬ (a = .onbus ∨ a = .rampdown)) :
    incomingSet c s r a =
      (c.idled, [abortFrame s r.caller r.caller r.number .offBus] ++ enteringReports .parallel .idle ++
        [.cc .serve]) := by
  rw [← hs]
  simp only [incomingSet, hs, if_neg ha, ccIdle_eq]
  rfl

theorem incomingSet_release (hs : c.state = .release) : incomingSet c s r a = quiet c := by
  simp only [incomingSet, hs]

/-! ### Incoming DEADBUS (R78) -/

/-- The calling station is off the bus in the peer table. -/
def OffBus (s : State) (caller : Nat) : Prop := ∃ e, s.pt.find caller = some e ∧ e.fields.onBus = false

theorem callerOffBus_iff {n : Nat} : callerOffBus s n = true ↔ OffBus s n := by
  unfold callerOffBus OffBus
  split
  next e found => simp only [Bool.not_eq_true', found, Option.some.injEq, exists_eq_left']
  next missing => simp only [missing, Bool.false_eq_true, reduceCtorEq, false_and, exists_false]

/-- The join is still to be asked for, and the bus is dead or the caller off it. -/
def IncRec.MayJoin (r : IncRec) (s : State) : Prop :=
  r.joinAsked = false ∧ (s.fli.inputs.busLive = false ∨ OffBus s r.caller)

theorem checkDeadbus_joined (hi : c.inc = some r) (hs : c.state = .deadbus) (bus : s.du.state = .onbus) :
    checkDeadbus c s = (c.releasing,
      stepFrame s r.caller r.caller r.number .closed' :: enteringReports .deadbus .release) := by
  rw [← hs]
  simp only [checkDeadbus, hi, hs, ne_eq, not_true_eq_false, if_false, if_pos bus, enterIncomingRelease_eq]

theorem mayJoin_iff : (!r.joinAsked && (!s.fli.inputs.busLive || callerOffBus s r.caller)) = true ↔ r.MayJoin s := by
  simp only [Bool.and_eq_true, Bool.or_eq_true, Bool.not_eq_true', callerOffBus_iff, IncRec.MayJoin]

theorem checkDeadbus_asks (hi : c.inc = some r) (hs : c.state = .deadbus) (off : s.du.state ≠ .onbus)
    (may : r.MayJoin s) :
    checkDeadbus c s = ({ c with inc := some { r with joinAsked := true } }, [.du .reqJoin]) := by
  simp only [checkDeadbus, hi, hs, ne_eq, not_true_eq_false, if_false, if_neg off, if_pos (mayJoin_iff.mpr may)]

theorem checkDeadbus_waits (hi : c.inc = some r) (hs : c.state = .deadbus) (off : s.du.state ≠ .onbus)
    (no : ¬ r.MayJoin s) : checkDeadbus c s = quiet c := by
  simp only [checkDeadbus, hi, hs, ne_eq, not_true_eq_false, if_false, if_neg off, if_neg (mt mayJoin_iff.mp no)]

/-- What DEADBUS waits for: a change of the bus, of the own set, of the caller. -/
theorem ccHandle_checkDeadbus {m : CcMsg} (hc : s.cc.call = none) (hi : s.cc.inc = some r)
    (hs : s.cc.state = .deadbus)
    (hm : m = .checkDeadbus ∨ (∃ b, m = .busLive b) ∨ ∃ b a, m = .setChanged b a) :
    ccHandle m s = checkDeadbus s.cc s := by
  rcases hm with rfl | ⟨b, rfl⟩ | ⟨b, a, rfl⟩
  · rfl
  · rfl
  · simp only [ccHandle, setChanged_incoming hc hi, incomingSet, hs]
end

/-! ### O44, clause by clause -/

/-- Settles O44: the frames by the state they meet, the limits by whether they run, a STATE by its row of Table 4-7, and
the own set's changes by side and state. -/
theorem transitionsAndEnds : Obligations.TransitionsAndEnds := by
  refine ⟨fun h p s ha hf => ?_, fun s up => ?_, fun s n e partner found => ?_, fun s r call => ?_,
    fun s r call inc => ?_⟩
  -- the partner's frames
  · intro named by_ treat idle kept released
    have out {r : CallRec} (call : s.cc.call = some r) (own : named r) : Refers s h p :=
      (refers_outgoing hf call).mpr own
    have in_ {r : IncRec} (call : s.cc.call = none) (inc : s.cc.inc = some r) (own : by_ r) : Refers s h p :=
      (refers_incoming call inc).mpr own
    refine ⟨fun hl => ⟨fun r call own closed prepare mode => ?_, fun r call own closed release => ?_,
        fun r call own closed deadbus => ?_, fun r call inc own opening prepare mode => ?_,
        fun r call inc own opened parallel => ?_, fun r call inc own hs => ?_,
        fun r call own parallel => ⟨fun early => ?_, fun late => ?_⟩, fun r call own deadbus => ?_,
        fun r call own release => ?_, fun r call own prepare => ⟨fun more => ?_, fun last => ?_⟩,
        fun r call inc own => ⟨fun hs => ?_, fun hs => ?_⟩, fun noCall noInc => ?_⟩,
      fun hl => ⟨fun r call inc own => ⟨fun offered => ?_, fun prepare => ?_⟩, fun noInc noCall => ?_⟩⟩
    · exact exec_stepReceived ha hf hl (out call own) ((takeStep_closed (stepOf_closed closed) call).trans
        ((takeClosed_prepare prepare mode).trans (prepare ▸ enterOutgoingParallel_eq s.cc)))
    · have done := (takeStep_closed (stepOf_closed closed) call).trans (takeClosed_release (s := s.heard) release)
      rw [own.2.2] at done
      exact (exec_stepReceived ha hf hl (out call own) done).trans
        (congrArg Host.Outcome.next (handOn_offer _ _ (k := 2) (by decide)))
    · have done := (takeStep_closed (stepOf_closed closed) call).trans (takeClosed_deadbus (s := s.heard) deadbus)
      rw [own.2.2] at done
      exact exec_stepReceived ha hf hl (out call own) done
    · exact exec_stepReceived ha hf hl (in_ call inc own)
        ((takeStep_opening (stepOf_opening opening) call inc prepare mode).trans
          (prepare ▸ enterIncomingDeadbus_eq s.cc r))
    · exact exec_stepReceived ha hf hl (in_ call inc own)
        ((takeStep_opened (stepOf_opened opened) call inc parallel).trans (parallel ▸ enterIncomingRelease_eq s.cc))
    · exact exec_endReceived ha hf hl (in_ call inc own) ((takeEnd_ends inc hs).trans (ccIdle_eq s.cc))
    · exact exec_abortReceived ha hf hl (out call own) (partnerGone_parallel_early (c := kept) call parallel early)
    · exact (exec_abortReceived ha hf hl (out call own)
        (partnerGone_parallel_late (c := kept) call parallel late)).trans (congrArg _ (handOn_nil _ _))
    · exact exec_abortReceived ha hf hl (out call own) (partnerGone_deadbus (c := kept) call deadbus)
    · exact (exec_abortReceived ha hf hl (out call own) (partnerGone_release (c := kept) call release)).trans
        (congrArg _ (handOn_nil _ _))
    · have noCall : kept.state ≠ .call := by rw [show kept.state = .prepare from prepare]; decide
      exact exec_abortReceived ha hf hl (out call own)
        ((partnerGone_prepare (c := kept) call prepare).trans (prepare ▸ failedAttempt_returns more noCall))
    · exact exec_abortReceived ha hf hl (out call own)
        ((partnerGone_prepare (c := kept) call prepare).trans (prepare ▸ failedAttempt_ends last))
    · exact exec_abortReceived ha hf hl (in_ call inc own) (partnerGone_idle (c := kept) call inc hs)
    · exact exec_abortReceived ha hf hl (in_ call inc own) (partnerGone_giveUp (c := kept) call inc hs)
    · have no := not_refers hf noCall noInc
      exact ⟨exec_stepReceived_void ha hf hl no, exec_endReceived_void ha hf hl no,
        exec_abortReceived_void ha hf hl no⟩
    · exact exec_holdReceived ha hf hl (in_ call inc own) ((takeHold_offered inc offered).trans (ccIdle_eq s.cc))
    · exact exec_holdReceived ha hf hl (in_ call inc own)
        ((takeHold_prepare inc prepare).trans (giveUp_eq s.cc s.heard))
    · exact exec_holdReceived_void ha hf hl (not_refers hf noCall noInc)
  -- the limits
  · refine ⟨fun void => ?_, fun r call deadbus running => ?_, fun r call inc deadbus running => ?_, fun void => ?_,
      fun release running => ?_⟩
    · exact congrArg Host.Outcome.next (run_cc_void up (gapLimitEnd_void void))
    · exact congrArg Host.Outcome.next (run_cc (m := .gapLimit) up
        ((gapLimitEnd_outgoing call deadbus running).trans (deadbus ▸ enterOutgoingRelease_eq s.cc)))
    · exact congrArg Host.Outcome.next (run_cc (m := .gapLimit) up
        ((gapLimitEnd_incoming call inc deadbus running).trans (deadbus ▸ giveUpWith_eq s.cc s r .gap)))
    · refine congrArg Host.Outcome.next (run_cc_void up ((ccHandle_endWait s).trans (if_neg fun ⟨hs, running⟩ => ?_)))
      exact void.elim (· hs) fun stopped => Option.not_isSome_iff_eq_none.mpr stopped running
    · exact congrArg Host.Outcome.next (run_cc up
        ((ccHandle_endWait s).trans ((if_pos ⟨release, running⟩).trans (release ▸ ccIdle_eq s.cc))))
  -- the partner's STATE, and its loss
  · intro becomes shown lost own ho treat idle ends
    refine ⟨fun r call inc => ?_, fun r call n1 => ?_⟩
    · have row {st : Handover} (hs : s.cc.state = st) (checked : checkedRow false st = true) :
          PartnerRow s n e false st := ⟨partner, found, by rw [call]; rfl, hs, checked⟩
      refine ⟨fun offered => ⟨?_, fun h ours => ?_⟩, fun prepare => ⟨?_, fun h ours => ?_, fun h ours closed => ?_,
          fun h ours open' => ?_⟩, fun parallel => ⟨?_, fun h ours => ?_, fun h ours => ?_⟩,
        fun deadbus => ⟨?_, fun h ours => ?_⟩, fun release => ⟨?_, fun h ours => ?_⟩⟩
      · exact (row offered rfl).ends (partnerGone_idle call inc (.inl offered))
      · rcases h with h | h <;>
          exact (row offered rfl).shown h (by decide) ours (takeShown_still call inc (.inl offered))
      · exact (row prepare rfl).ends (partnerGone_giveUp call inc (.inl prepare))
      · exact (row prepare rfl).shown h (by decide) ours (takeShown_preparing call inc prepare h)
      · have still : r.mode ≠ some .open' := by rw [closed]; decide
        exact (row prepare rfl).shown h (by decide) ours
          ((takeShown_opening call inc prepare h).trans (if_neg still))
      · exact (row prepare rfl).shown h (by decide) ours ((takeShown_opening call inc prepare h).trans
          ((if_pos open').trans (prepare ▸ enterIncomingDeadbus_eq s.cc r)))
      · exact (row parallel rfl).ends (partnerGone_idle call inc (.inr (.inl parallel)))
      · rcases h with h | h
        · exact (row parallel rfl).shown h (by decide) ours (takeShown_parallel call inc parallel (.inl h))
        · exact (row parallel rfl).shown h (by decide) ours (takeShown_parallel call inc parallel (.inr h))
      · exact (row parallel rfl).shown h (by decide) ours
          ((takeShown_opened call inc parallel h).trans (parallel ▸ enterIncomingRelease_eq s.cc))
      · exact (row deadbus rfl).ends (partnerGone_giveUp call inc (.inr deadbus))
      · rcases h with h | h | h <;>
          exact (row deadbus rfl).shown h (by decide) ours (takeShown_deadbus call inc deadbus)
      · exact (row release rfl).ends (partnerGone_idle call inc (.inr (.inr release)))
      · rcases h with h | h <;>
          exact (row release rfl).shown h (by decide) ours (takeShown_still call inc (.inr release))
    · have row {st : Handover} (hs : s.cc.state = st) (checked : checkedRow true st = true) :
          PartnerRow s n e true st := ⟨partner, found, by rw [call]; rfl, hs, checked⟩
      have named : r.incoming.getD 0 = n := by rw [← partner, Cc.partner, call]
      refine ⟨fun prepare => ⟨fun more => ?_, fun last => ?_, fun h ours => ?_, fun h ours unready => ?_,
          fun h ours ready closed => ?_, fun h ours ready open' now => ?_, fun h ours bus closed => ?_⟩,
        fun parallel => ⟨fun early => ?_, fun late => ?_, fun h ours => ?_⟩,
        fun deadbus => ⟨?_, fun h ours => ?_, fun h ours off => ?_, fun h ours bus => ?_⟩, fun hs => ?_⟩
      · have noCall : s.cc.state ≠ .call := by rw [prepare]; decide
        exact (row prepare rfl).ends
          ((partnerGone_prepare call prepare).trans (prepare ▸ failedAttempt_returns more noCall))
      · exact (row prepare rfl).ends
          ((partnerGone_prepare call prepare).trans (prepare ▸ failedAttempt_ends last))
      · exact (row prepare rfl).shown h (by decide) ours (takeShown_out_offered call prepare h)
      · exact (row prepare rfl).shown h (by decide) ours
          ((takeShown_out_ready call prepare h).trans (if_neg unready))
      · exact (row prepare rfl).shown h (by decide) ours
          ((takeShown_out_ready call prepare h).trans ((if_pos ready).trans (takeReady_notes prepare closed)))
      · have opens := takeReady_opens prepare open' (not_waits_iff.mpr now)
        rw [named] at opens
        exact (row prepare rfl).shown h (by decide) ours
          ((takeShown_out_ready call prepare h).trans ((if_pos ready).trans opens))
      · exact (row prepare rfl).shown h (by decide) ours ((takeShown_out_joined call prepare h bus).trans
          ((takeClosed_prepare prepare closed).trans (prepare ▸ enterOutgoingParallel_eq s.cc)))
      · exact (row parallel rfl).ends (partnerGone_parallel_early call parallel early)
      · exact (row parallel rfl).ends (partnerGone_parallel_late call parallel late)
      · rcases h with h | h | h <;>
          exact (row parallel rfl).shown h (by decide) ours (takeShown_out_parallel call parallel)
      · exact (row deadbus rfl).ends (partnerGone_deadbus call deadbus)
      · rcases h with h | h
        · exact (row deadbus rfl).shown h (by decide) ours (takeShown_out_deadbus call deadbus (.inl h))
        · exact (row deadbus rfl).shown h (by decide) ours (takeShown_out_deadbus call deadbus (.inr h))
      · exact (row deadbus rfl).shown h (by decide) ours
          ((takeShown_out_release call deadbus h).trans (if_neg (ne_true_of_eq_false off)))
      · have closes := takeClosed_deadbus (s := s) (q := r) deadbus
        rw [named] at closes
        exact (row deadbus rfl).shown h (by decide) ours
          ((takeShown_out_release call deadbus h).trans ((if_pos bus).trans closes))
      · refine deliver_cc_void (hearPartner_unchecked ?_)
        rw [call]
        rcases hs with hs | hs | hs <;> rw [hs] <;> rfl
  -- the own set, outgoing
  · intro becomes given n abort ending idle early dropped gone
    have moved (b a : SetState) : ccHandle (.setChanged b a) s = outgoingSet s.cc s r b a := setChanged_outgoing call
    refine ⟨fun a hs left => ?_, fun b a hs stays => ?_, fun prepare off => ?_, fun other => ?_,
      fun parallel b a => ⟨fun ha => ?_, fun fault => ?_, fun h1 h2 h3 => ?_⟩, fun parallel => ⟨fun o => ?_, ?_, ?_⟩,
      fun other => ⟨fun o => ?_, ?_, ?_⟩, fun deadbus => ?_, fun other => ?_,
      fun deadbus b a => ⟨fun on => ?_, fun noBus noRamp => ?_⟩,
      fun release => ⟨fun b a => ⟨fun left => ?_, fun stays => ?_⟩, fun left off => ?_, fun stays => ?_⟩⟩
    · exact deliver_cc_of ((moved _ a).trans
        ((outgoingSet_early hs).trans ((if_pos ⟨rfl, left⟩).trans (dropCall_eq s.cc s r .offBus))))
    · exact deliver_cc_void ((moved b a).trans
        ((outgoingSet_early hs).trans (if_neg fun ⟨on, left⟩ => stays.elim (· on) left)))
    · exact deliver_cc_of ((checkSet_eq call).trans ((if_pos ⟨prepare, off⟩).trans (dropCall_eq s.cc s r .offBus)))
    · exact deliver_cc_void ((checkSet_eq call).trans
        (if_neg fun ⟨prepare, off⟩ => other.elim (· prepare) off))
    · refine ⟨_, deliver_cc_of ((moved b a).trans (outgoingSet_off parallel ha)), fun q hq => ?_⟩
      rw [hq, Option.getD_some]
    · subst fault
      exact deliver_cc_of ((moved b _).trans (outgoingSet_fault parallel))
    · exact deliver_cc_void ((moved b a).trans (outgoingSet_parallel_still parallel h1 h2 h3))
    · exact deliver_cc_of (ccTripIssued_parallel call parallel o)
    · exact deliver_cc_of (ccRampAbandoned_parallel call parallel)
    · exact deliver_cc_of (ccRampRefused_parallel call parallel)
    · exact deliver_cc_void (ccTripIssued_void other o)
    · exact deliver_cc_void (ccRampAbandoned_void other)
    · exact deliver_cc_void (ccRampRefused_void other)
    · exact deliver_cc_of (ccTripFail_deadbus call deadbus)
    · exact deliver_cc_void (ccTripFail_void other)
    · exact deliver_cc_void ((moved b a).trans ((outgoingSet_deadbus deadbus).trans (by rw [if_pos on])))
    · exact deliver_cc_of ((moved b a).trans
        ((outgoingSet_deadbus deadbus).trans (by rw [if_neg fun h => h.elim noBus noRamp]; rfl)))
    · exact deliver_cc_of ((moved b a).trans
        ((outgoingSet_release release).trans ((if_pos left).trans (ccIdle_eq s.cc))))
    · exact deliver_cc_void ((moved b a).trans ((outgoingSet_release release).trans (if_neg (not_not_intro stays))))
    · exact deliver_cc_of ((checkRelease_eq call).trans ((if_pos ⟨release, left, off⟩).trans (ccIdle_eq s.cc)))
    · refine deliver_cc_void ((checkRelease_eq call).trans (if_neg fun ⟨_, left, off⟩ => ?_))
      rcases stays with cooling | ⟨bus, here⟩
      · exact left cooling
      · exact off.elim (· bus) (fun gone => nomatch here.symm.trans gone)
  -- the own set, incoming
  · intro becomes given off
    refine ⟨fun parallel b a => ⟨fun on => ?_, fun noBus noRamp => ?_⟩, fun deadbus m hm => ?_, fun release b a => ?_⟩
    · exact deliver_cc_void ((setChanged_incoming call inc).trans (incomingSet_parallel_on parallel on))
    · exact deliver_cc_of ((setChanged_incoming call inc).trans
        (incomingSet_parallel_off parallel fun h => h.elim noBus noRamp))
    · have tested := ccHandle_checkDeadbus call inc deadbus hm
      refine ⟨fun bus => ?_, fun noBus free may => ?_, fun noBus h => ?_⟩
      · exact deliver_cc_of (tested.trans (checkDeadbus_joined inc deadbus bus))
      · exact deliver_cc_of (tested.trans (checkDeadbus_asks inc deadbus noBus ⟨free, may⟩))
      · refine deliver_cc_void (tested.trans (checkDeadbus_waits inc deadbus noBus fun ⟨free, may⟩ => ?_))
        rcases h with asked | ⟨live, onBus⟩
        · cases asked.symm.trans free
        · exact may.elim (fun dead => nomatch live.symm.trans dead) onBus
    · exact deliver_cc_void ((setChanged_incoming call inc).trans (incomingSet_release release))

end Sys2Proof.Machine
end

section
/-! SUPPORT. The Shed Controller of a running part: what reaches it, and how its answer is handed on. -/

namespace Sys2Proof.Machine

/-! ### What reaches the SC -/

section
variable {s : State} {m : ScMsg} {c : Sc} {rs : List Report}

theorem deliver_sc_of (h : scHandle m s = (c, rs)) : deliver (.sc m) s = ({ s with sc := c }, rs) := by
  rw [deliver_sc, h]

theorem deliver_sc_void (h : scHandle m s = quiet s.sc) : deliver (.sc m) s = (s, []) := deliver_sc_of h

theorem run_sc (up : s.isUp = true) (h : scHandle m s = (c, rs)) :
    s.run [.sc m] = State.handOn { s with sc := c } 1 rs := by
  rw [run_one up, deliver_sc_of h]

theorem run_sc_void (up : s.isUp = true) (h : scHandle m s = quiet s.sc) : s.run [.sc m] = s :=
  (run_sc up h).trans (handOn_nil _ _)
end

/-! ### The acts of the SC, one per message -/

theorem Cfg.anyFeeder_of_fitted {g : Cfg} {n : FeederId} (h : g.fitted.get n = true) : g.anyFeeder = true := by
  cases n <;> simp_all [Cfg.anyFeeder, Quad.get]

/-- The one-second timer needs no feeder fitted (R94). -/
theorem scHandle_second {s : State} (hp : s.phase = .running) : scHandle .second s = scSecond s.sc s := by
  simp [scHandle, isRunning_of_running hp]

section
variable {s : State} (hp : s.phase = .running) (hf : s.cfg.anyFeeder = true)
include hp hf

theorem scHandle_window : scHandle .window s = confirmWindowEnd s.sc s := by
  simp [scHandle, isRunning_of_running hp, hf]

theorem scHandle_settle : scHandle .settle s = settleEnd s.sc := by
  simp [scHandle, isRunning_of_running hp, hf]

theorem scHandle_spacing : scHandle .spacing s = spacingEnd s.sc := by
  simp [scHandle, isRunning_of_running hp, hf]

theorem scHandle_busLive (live : Bool) : scHandle (.busLive live) s = scBusLive s.sc s live := by
  simp [scHandle, isRunning_of_running hp, hf]

theorem scHandle_endOfStart : scHandle .endOfStart s = scBusLive s.sc s s.fli.inputs.busLive := by
  simp [scHandle, isRunning_of_running hp, hf, scEndOfStart, scBusLive]

theorem scHandle_figures (power cls : Bool) : scHandle (.figures power cls) s = scFigures s.sc s power cls := by
  simp [scHandle, isRunning_of_running hp, hf]

theorem scHandle_restoreTest : scHandle .restoreTest s = restoreTest s.sc s := by
  simp [scHandle, isRunning_of_running hp, hf]

theorem scHandle_handover (before : Handover) : scHandle (.handover before) s =
    if before = .parallel ∨ before = .deadbus then restoreTest s.sc s else quiet s.sc := by
  simp [scHandle, isRunning_of_running hp, hf]

theorem scHandle_changed : scHandle .changed s = scChanged s.sc s := by
  simp [scHandle, isRunning_of_running hp, hf]

theorem scHandle_fWindow (n : FeederId) : scHandle (.fWindow n) s = quiet (feederWindow s.sc s n) := by
  simp [scHandle, isRunning_of_running hp, hf]
end

end Sys2Proof.Machine
end

section
/-! SUPPORT. The seconds of the feeders and of the open interval, and the window kW (O46). -/

namespace Sys2Proof.Machine

/-! ### The window's kW (R93) -/

theorem feederWindow_get_same (c : Sc) (s : State) (n : FeederId) : (feederWindow c s n).recs.get n =
    { c.recs.get n with
      lastKw := if (c.recs.get n).steady && ((c.recs.get n).closed && (c.recs.get n).inFlight.isNone) then
          some (s.pcu.get (.f n)).figure
        else (c.recs.get n).lastKw
      steady := (c.recs.get n).closed && (c.recs.get n).inFlight.isNone } :=
  Quad.get_put_same ..

theorem feederWindow_get_other (c : Sc) (s : State) {n m : FeederId} (h : m ≠ n) :
    (feederWindow c s n).recs.get m = c.recs.get m :=
  Quad.get_put_other _ _ h

/-- The expiry of a feeder channel's window: the PCU latches the count, and the SC the kW. -/
theorem run_feederWindow {s : State} {n : FeederId} (hp : s.phase = .running) (hn : s.cfg.fitted.get n = true) :
    let p := (pcuWindow (.f n) s).1
    s.run [.pcu (.window (.f n))] = { s with pcu := p, sc := feederWindow s.sc { s with pcu := p } n } := by
  intro p
  have told : scHandle (.fWindow n) { s with pcu := p } = quiet (feederWindow s.sc { s with pcu := p } n) :=
    scHandle_fWindow (s := { s with pcu := p }) hp (Cfg.anyFeeder_of_fitted hn) n
  have counted : deliver (.pcu (.window (.f n))) s = ({ s with pcu := p }, [.sc (.fWindow n)]) := by
    rw [deliver_pcu, pcuHandle_window (c := .f n) hp hn]
    rfl
  rw [run_one (isRunning_isUp hp), counted, handOn_cons _ _ _ (by decide), deliver_sc_of told]
  exact handOn_nil _ _

/-! ### Seconds in the open interval (R94, R145) -/

/-- The open interval with an energised second of a feeder counted. -/
def Interval.energised (i : Interval) (n : FeederId) : Interval := onFeeder i n fun a => { a with t := a.t + 1 }

theorem foldl_energised_seconds (l : List FeederId) (i : Interval) :
    (l.foldl Interval.energised i).seconds = i.seconds := by
  induction l generalizing i with
  | nil => rfl
  | cons n l ih => exact ih _

theorem foldl_energised_get_absent {l : List FeederId} {n : FeederId} (i : Interval) (h : n ∉ l) :
    (l.foldl Interval.energised i).feeders.get n = i.feeders.get n := by
  induction l generalizing i with
  | nil => rfl
  | cons m l ih =>
      obtain ⟨other, absent⟩ : n ≠ m ∧ n ∉ l := by simpa using h
      exact (ih _ absent).trans (onFeeder_get_other i _ other)

/-- Each feeder named once counts one second, and no other feeder any. -/
theorem foldl_energised_get {l : List FeederId} (once : l.Nodup) (i : Interval) (n : FeederId) :
    (l.foldl Interval.energised i).feeders.get n =
      (i.feeders.get n).map fun a => { a with t := a.t + if n ∈ l then 1 else 0 } := by
  induction l generalizing i with
  | nil => simp
  | cons m l ih =>
      obtain ⟨absent, once⟩ := List.nodup_cons.mp once
      by_cases h : n = m
      · subst h
        simp [foldl_energised_get_absent _ absent, Interval.energised, onFeeder_get_same]
      · simp [ih once, Interval.energised, onFeeder_get_other _ _ h, h]

theorem FeederAcc.shed_counted (a : FeederAcc) (counts : Bool) :
    (if counts then { a with u := a.u + 1 } else a) = { a with u := a.u + if counts then 1 else 0 } := by
  cases counts <;> rfl

theorem markSecond_get (i : Interval) (s : State) (n : FeederId) : (markSecond i s).feeders.get n =
    (i.feeders.get n).map fun a =>
      { a with u := a.u + if s.sc.listed n && !((s.sc.recs.get n).closed && s.fli.inputs.busLive) then 1 else 0 } :=
  (Quad.get_ofFn _ n).trans (congrArg (Option.map · _) (funext fun a => a.shed_counted _))

/-- The open interval replaced: at most one report of it to the SR, and what is behind is worked off. -/
theorem settle_intervalReplaced (n : Nat) (s : State) (i : Interval) (rest : List Report) : ∃ k t, n ≤ k ∧
    settle (n + 1) ((withInterval s.bu i).2 ++ rest) { s with bu := (withInterval s.bu i).1 } =
      settle k rest { s with bu := { s.bu with interval := i }, store := t } := by
  by_cases same : i = s.bu.interval
  · exact ⟨n + 1, s.store, n.le_succ, by simp [withInterval, same]⟩
  · exact ⟨n, _, le_rfl, settle_withInterval n s i rest same⟩

/-- The energised seconds handed to the BU are counted one after the other. -/
theorem settle_energised (l : List FeederId) (n : Nat) (rest : List Report) (s : State) (room : 2 * l.length ≤ n) :
    ∃ k t, n ≤ k + 2 * l.length ∧
      settle n (l.map (fun f => .bu (.energised f)) ++ rest) s =
        settle k rest
          { s with bu := { s.bu with interval := l.foldl Interval.energised s.bu.interval }, store := t } := by
  induction l generalizing n s with
  | nil => exact ⟨n, s.store, le_rfl, rfl⟩
  | cons f l ih =>
      rw [List.length_cons] at room
      obtain ⟨n, rfl⟩ : ∃ j, n = j + 2 := ⟨n - 2, by omega⟩
      obtain ⟨j, t, hj, counted⟩ := settle_intervalReplaced n s (s.bu.interval.energised f)
        (l.map (fun f => .bu (.energised f)) ++ rest)
      obtain ⟨k, u, hk, others⟩ := ih j
        { s with bu := { s.bu with interval := s.bu.interval.energised f }, store := t } (by omega)
      refine ⟨k, u, by rw [List.length_cons]; omega, ?_⟩
      rw [List.map_cons, List.cons_append, settle_cons]
      exact counted.trans others

/-- The second mark, the last of the reports. -/
theorem settle_secondMark (n : Nat) (s : State) (room : 2 ≤ n) : ∃ t, settle n [.bu .secondMark] s =
    { s with bu := { s.bu with interval := markSecond s.bu.interval s }, store := t } := by
  obtain ⟨n, rfl⟩ : ∃ j, n = j + 2 := ⟨n - 2, by omega⟩
  obtain ⟨k, t, -, marked⟩ := settle_intervalReplaced n s (markSecond s.bu.interval s) []
  exact ⟨t, (settle_cons _ _ _ _).trans (marked.trans (settle_nil _ _))⟩

/-- The feeders that count an energised second (R94). -/
def energisedFeeders (s : State) : List FeederId := FeederId.every.filter (energisedNow s)

theorem energisedFeeders_nodup (s : State) : (energisedFeeders s).Nodup := List.Nodup.filter _ (by decide)

theorem mem_energisedFeeders {s : State} {n : FeederId} (fitted : s.cfg.fitted.get n = true) :
    n ∈ energisedFeeders s ↔ ((s.sc.recs.get n).closed && s.fli.inputs.busLive) = true := by
  simp [energisedFeeders, energisedNow, FeederId.mem_every, fitted]

theorem scSecond_eq (c : Sc) (s : State) : scSecond c s =
    ((scSecond c s).1, (energisedFeeders s).map (fun n => .bu (.energised n)) ++ [.bu .secondMark]) := rfl

theorem scSecond_get {s : State} {n : FeederId} (fitted : s.cfg.fitted.get n = true) :
    (scSecond s.sc s).1.recs.get n = { s.sc.recs.get n with
      energised := (s.sc.recs.get n).energised +
        if (s.sc.recs.get n).closed && s.fli.inputs.busLive then 1 else 0 } := by
  have counts : energisedNow s n = ((s.sc.recs.get n).closed && s.fli.inputs.busLive) := by
    simp only [energisedNow, fitted, Bool.true_and]
  simp only [scSecond, Quad.get_ofFn, counts]
  split <;> rfl

/-- The one-second timer: the records, and then the open interval. -/
theorem run_second {s : State} (hp : s.phase = .running) : ∃ t, s.run [.sc .second] =
    { s with
      sc := (scSecond s.sc s).1
      bu := { s.bu with interval := markSecond ((energisedFeeders s).foldl Interval.energised s.bu.interval)
                          { s with sc := (scSecond s.sc s).1 } }
      store := t } := by
  have few : (energisedFeeders s).length ≤ 4 := List.length_filter_le ..
  obtain ⟨k, t, hk, counted⟩ := settle_energised (energisedFeeders s) (settleLimit - 1) [.bu .secondMark]
    { s with sc := (scSecond s.sc s).1 } (by simp only [settleLimit]; omega)
  obtain ⟨u, marked⟩ := settle_secondMark k
    { s with
      sc := (scSecond s.sc s).1
      bu := { s.bu with interval := (energisedFeeders s).foldl Interval.energised s.bu.interval }, store := t }
    (by simp only [settleLimit] at hk; omega)
  refine ⟨u, ?_⟩
  rw [run_sc (isRunning_isUp hp) ((scHandle_second hp).trans (scSecond_eq _ _))]
  exact counted.trans marked

/-- Settles O46: the window by `run_feederWindow`, the second by `run_second`. -/
theorem secondsOfTheFeeders : Obligations.SecondsOfTheFeeders := by
  refine ⟨fun s n hp hn => ?_, fun s hp => ?_⟩
  · refine ⟨_, congrArg Host.Outcome.next (run_feederWindow hp hn), ?_, fun m hm => ?_, rfl⟩
    · exact feederWindow_get_same _ _ n
    · exact feederWindow_get_other _ _ hm
  · obtain ⟨u, ran⟩ := run_second hp
    refine ⟨_, congrArg Host.Outcome.next ran, ?_, rfl, rfl, rfl, fun n hn => ⟨scSecond_get hn, ?_⟩⟩
    · exact congrArg (· + 1) (foldl_energised_seconds _ _)
    · have position : ((scSecond s.sc s).1.recs.get n).closed = (s.sc.recs.get n).closed := by rw [scSecond_get hn]
      dsimp only
      rw [markSecond_get, foldl_energised_get (energisedFeeders_nodup s), Option.map_map]
      simp only [mem_energisedFeeders hn, position]
      rfl

end Sys2Proof.Machine
end

section
/-! SUPPORT. The shed candidate, the shed summary, and the restore candidate (R90, R92, R96, R102). -/

namespace Sys2Proof.Machine

/-! ### The shed candidate and the shed summary -/

/-- A feeder closed and NORMAL counts for its class (R92). -/
def Sc.Counts (c : Sc) (n : FeederId) : Prop :=
  (c.recs.get n).closed = true ∧ (c.recs.get n).failed = none ∧ c.listed n = false

/-- A feeder that can be the head of its class (R90). -/
def Sc.Sheddable (c : Sc) (n : FeederId) : Prop :=
  (c.recs.get n).closed = true ∧ (c.recs.get n).failed = none ∧ c.listed n = false ∧ (c.recs.get n).inFlight = none

theorem Sc.normal_iff (c : Sc) (n : FeederId) :
    c.normal n = true ↔ (c.recs.get n).failed = none ∧ c.listed n = false := by
  unfold normal status
  rw [show (c.shedList.any (·.feeder == n)) = c.listed n from rfl]
  cases (c.recs.get n).failed <;> cases c.listed n <;> simp

theorem Sc.counts_iff (c : Sc) (n : FeederId) :
    ((c.recs.get n).closed && c.normal n) = true ↔ c.Counts n := by
  rw [Bool.and_eq_true, c.normal_iff]
  rfl

theorem Sc.sheddable_iff (c : Sc) (n : FeederId) :
    ((c.recs.get n).closed && c.normal n && (c.recs.get n).inFlight.isNone) = true ↔ c.Sheddable n := by
  rw [Bool.and_eq_true, c.counts_iff, Option.isNone_iff_eq_none]
  simp only [Counts, Sheddable, and_assoc]

theorem Sc.head_eq_none_iff {c : Sc} {k : FeederClass} :
    c.head k = none ↔ ∀ n ∈ c.rotation k, ¬ c.Sheddable n := by
  simp only [head, List.find?_eq_none, c.sheddable_iff]

theorem Sc.head_eq_some_iff {c : Sc} {k : FeederClass} {n : FeederId} : c.head k = some n ↔
    ∃ ahead behind, c.rotation k = ahead ++ n :: behind ∧ c.Sheddable n ∧ ∀ m ∈ ahead, ¬ c.Sheddable m := by
  simp only [head, List.find?_eq_some_iff_append, Bool.not_eq_true', ← Bool.not_eq_true, c.sheddable_iff]
  exact ⟨fun ⟨able, ahead, behind, split, idle⟩ => ⟨ahead, behind, split, able, idle⟩,
    fun ⟨ahead, behind, split, able, idle⟩ => ⟨able, ahead, behind, split, idle⟩⟩

theorem ClassOrder.forall_rising (o : ClassOrder) {P : FeederClass → Prop} :
    (∀ k ∈ o.rising, P k) ↔ P o.lowest ∧ P o.middle ∧ P o.highest := by
  simp [rising]

theorem shedCandidate_eq_none_iff (o : ClassOrder) (c : Sc) :
    shedCandidate o c = none ↔ ∀ k ∈ o.rising, ∀ n ∈ c.rotation k, ¬ c.Sheddable n := by
  simp only [shedCandidate, List.findSome?_eq_none_iff, Option.map_eq_none_iff, Sc.head_eq_none_iff]

/-- The candidate is the head of the first of the rising classes that has one. -/
theorem shedCandidate_eq_some_iff (o : ClassOrder) (c : Sc) (k : FeederClass) (n : FeederId) :
    shedCandidate o c = some (k, n) ↔ ∃ lower higher ahead behind, o.rising = lower ++ k :: higher ∧
      c.rotation k = ahead ++ n :: behind ∧ c.Sheddable n ∧ (∀ m ∈ ahead, ¬ c.Sheddable m) ∧
      ∀ q ∈ lower, ∀ m ∈ c.rotation q, ¬ c.Sheddable m := by
  simp only [shedCandidate, List.findSome?_eq_some_iff, Option.map_eq_none_iff, Option.map_eq_some_iff,
    Prod.mk.injEq, Sc.head_eq_none_iff, Sc.head_eq_some_iff]
  constructor
  · rintro ⟨lower, k, higher, classes, ⟨n, ⟨ahead, behind, split, able, idle⟩, rfl, rfl⟩, headless⟩
    exact ⟨lower, higher, ahead, behind, classes, split, able, idle, headless⟩
  · rintro ⟨lower, higher, ahead, behind, classes, split, able, idle, headless⟩
    exact ⟨lower, k, higher, classes, ⟨n, ⟨ahead, behind, split, able, idle⟩, rfl, rfl⟩, headless⟩

theorem classCounts_iff (c : Sc) (k : FeederClass) :
    ((c.rotation k).any fun n => (c.recs.get n).closed && c.normal n) = true ↔ ∃ n ∈ c.rotation k, c.Counts n := by
  simp only [List.any_eq_true, c.counts_iff]

theorem summaryOf_cls_eq_none_iff (g : Cfg) (c : Sc) :
    (summaryOf g c).cls = none ↔ ∀ k ∈ g.order.rising, ¬ ∃ n ∈ c.rotation k, c.Counts n := by
  simp only [summaryOf, List.find?_eq_none, classCounts_iff]

theorem summaryOf_cls_eq_some_iff (g : Cfg) (c : Sc) (k : FeederClass) :
    (summaryOf g c).cls = some k ↔ ∃ lower higher, g.order.rising = lower ++ k :: higher ∧
      (∃ n ∈ c.rotation k, c.Counts n) ∧ ∀ q ∈ lower, ¬ ∃ n ∈ c.rotation q, c.Counts n := by
  simp only [summaryOf, List.find?_eq_some_iff_append, Bool.not_eq_true', ← Bool.not_eq_true, classCounts_iff]
  exact ⟨fun ⟨counts, lower, higher, classes, idle⟩ => ⟨lower, higher, classes, counts, idle⟩,
    fun ⟨lower, higher, classes, counts, idle⟩ => ⟨counts, lower, higher, classes, idle⟩⟩

theorem summaryOf_count (g : Cfg) (c : Sc) : (summaryOf g c).count =
    (c.shedList.filter fun e => decide (g.cls.get e.feeder ≠ .protectedClass)).length := by
  refine congrArg List.length (List.filter_congr fun e _ => ?_)
  rw [Bool.eq_iff_iff]
  simp

theorem peerLower_eq_true_iff (s : State) (k : FeederClass) : peerLower s k = true ↔
    ∃ q, s.pt.figs.lowestShed = some q ∧ priority s.cfg.order q < priority s.cfg.order k := by
  unfold peerLower
  cases s.pt.figs.lowestShed <;> simp

/-! ### The restore candidate -/

section
variable (g : Cfg) (c : Sc)

/-- An entry whose feeder may be restored: it is not FAILED (R102). -/
def Sc.Restorable (e : ShedEntry) : Prop := (c.recs.get e.feeder).failed = none

/-- The class priority of an entry's feeder. -/
def Cfg.rank (e : ShedEntry) : Nat := priority g.order (g.cls.get e.feeder)

/-- `e` is the restorable entry of the highest class, and the earliest of that class. -/
def RestoresFirst (ahead : List ShedEntry) (e : ShedEntry) (behind : List ShedEntry) : Prop :=
  c.Restorable e ∧ (∀ x ∈ ahead, c.Restorable x → g.rank x < g.rank e) ∧
    ∀ x ∈ behind, c.Restorable x → g.rank x ≤ g.rank e

/-- What the entries of a list give for a candidate. -/
def IsCandidate (l : List ShedEntry) : Option FeederId → Prop
  | none => ∀ e ∈ l, ¬ c.Restorable e
  | some n => ∃ ahead e behind, l = ahead ++ e :: behind ∧ e.feeder = n ∧ RestoresFirst g c ahead e behind

/-- The candidate among the entries of a list. -/
def candidateAmong (l : List ShedEntry) : Option FeederId :=
  ((l.map (·.feeder)).filter fun n => (c.recs.get n).failed.isNone).foldl (betterEntry g) none
end

section
variable {g : Cfg} {c : Sc}

theorem candidateAmong_append (l : List ShedEntry) (x : ShedEntry) : candidateAmong g c (l ++ [x]) =
    if (c.recs.get x.feeder).failed.isNone then betterEntry g (candidateAmong g c l) x.feeder
    else candidateAmong g c l := by
  simp only [candidateAmong, List.map_append, List.map_singleton, List.filter_append, List.foldl_append,
    List.filter_singleton]
  cases (c.recs.get x.feeder).failed.isNone <;> rfl

theorem betterEntry_some (b n : FeederId) : betterEntry g (some b) n =
    if priority g.order (g.cls.get b) < priority g.order (g.cls.get n) then some n else some b := rfl

theorem RestoresFirst.rank_le {ahead behind : List ShedEntry} {e x : ShedEntry}
    (h : RestoresFirst g c ahead e behind) (hx : x ∈ ahead ++ e :: behind) (able : c.Restorable x) :
    g.rank x ≤ g.rank e := by
  obtain ⟨-, before, after⟩ := h
  rcases List.mem_append.mp hx with hx | hx
  · exact (before x hx able).le
  · rcases List.mem_cons.mp hx with rfl | hx
    · exact le_rfl
    · exact after x hx able

/-- One more entry behind the others. -/
theorem isCandidate_append {l : List ShedEntry} (h : IsCandidate g c l (candidateAmong g c l))
    (x : ShedEntry) : IsCandidate g c (l ++ [x]) (candidateAmong g c (l ++ [x])) := by
  have inLast (P : ShedEntry → Prop) {m : List ShedEntry} (hm : ∀ y ∈ m, P y) (hx : P x) : ∀ y ∈ m ++ [x], P y := by
    simpa [or_imp, forall_and] using ⟨hm, hx⟩
  rw [candidateAmong_append]
  by_cases able : c.Restorable x
  · rw [if_pos (Option.isNone_iff_eq_none.mpr able)]
    cases best : candidateAmong g c l with
    | none =>
        rw [best] at h
        exact ⟨l, x, [], rfl, rfl, able, fun y hy may => absurd may (h y hy), nofun⟩
    | some b =>
        rw [best] at h
        obtain ⟨ahead, e, behind, rfl, rfl, first⟩ := h
        rw [betterEntry_some]
        split
        next better =>
          exact ⟨_, x, [], rfl, rfl, able, fun y hy may => (first.rank_le hy may).trans_lt better, nofun⟩
        next worse =>
          obtain ⟨may, before, after⟩ := first
          exact ⟨ahead, e, behind ++ [x], by simp, rfl, may, before,
            inLast (fun y => c.Restorable y → g.rank y ≤ g.rank e) after fun _ => not_lt.mp worse⟩
  · rw [if_neg (mt Option.isNone_iff_eq_none.mp able)]
    cases best : candidateAmong g c l with
    | none =>
        rw [best] at h
        exact inLast (fun y => ¬ c.Restorable y) h able
    | some b =>
        rw [best] at h
        obtain ⟨ahead, e, behind, rfl, rfl, may, before, after⟩ := h
        exact ⟨ahead, e, behind ++ [x], by simp, rfl, may, before,
          inLast (fun y => c.Restorable y → g.rank y ≤ g.rank e) after fun may => absurd may able⟩

theorem isCandidate_candidateAmong (l : List ShedEntry) : IsCandidate g c l (candidateAmong g c l) := by
  induction l using List.reverseRecOn with
  | nil => exact nofun
  | append_singleton l x ih => exact isCandidate_append ih x

/-- Of two entries that are each first, neither stands ahead of the other. -/
theorem RestoresFirst.not_ahead {ahead behind ahead' behind' : List ShedEntry} {e e' : ShedEntry}
    (h : RestoresFirst g c ahead e behind) (h' : RestoresFirst g c ahead' e' behind')
    (same : ahead ++ e :: behind = ahead' ++ e' :: behind') : e ∉ ahead' := by
  intro he
  obtain ⟨able', before', -⟩ := h'
  have listed : e' ∈ ahead ++ e :: behind := by simp [same]
  exact absurd (before' e he h.1) (not_lt.mpr (h.rank_le listed able'))

/-- No list has two such entries. -/
theorem RestoresFirst.unique {ahead behind ahead' behind' : List ShedEntry} {e e' : ShedEntry}
    (h : RestoresFirst g c ahead e behind) (h' : RestoresFirst g c ahead' e' behind')
    (same : ahead ++ e :: behind = ahead' ++ e' :: behind') : e = e' := by
  have right := h.not_ahead h' same
  have left := h'.not_ahead h same.symm
  rcases List.append_eq_append_iff.mp same with ⟨between, rfl, rest⟩ | ⟨between, rfl, rest⟩
  · cases between with
    | nil => exact (List.cons.inj rest).1
    | cons y ys => exact absurd (by rw [(List.cons.inj rest).1]; simp) right
  · cases between with
    | nil => exact (List.cons.inj rest).1.symm
    | cons y ys => exact absurd (by rw [(List.cons.inj rest).1]; simp) left
end

theorem restoreCandidate_eq_none_iff (g : Cfg) (c : Sc) :
    restoreCandidate g c = none ↔ ∀ e ∈ c.shedList, ¬ c.Restorable e := by
  have spec : IsCandidate g c c.shedList (restoreCandidate g c) := isCandidate_candidateAmong c.shedList
  cases found : restoreCandidate g c with
  | none => rw [found] at spec; exact ⟨fun _ => spec, fun _ => rfl⟩
  | some n =>
      rw [found] at spec
      obtain ⟨ahead, e, behind, split, -, able, -, -⟩ := spec
      exact ⟨nofun, fun idle => absurd able (idle e (by simp [split]))⟩

theorem restoreCandidate_eq_some_iff (g : Cfg) (c : Sc) (n : FeederId) : restoreCandidate g c = some n ↔
    ∃ ahead e behind, c.shedList = ahead ++ e :: behind ∧ e.feeder = n ∧ RestoresFirst g c ahead e behind := by
  have spec : IsCandidate g c c.shedList (restoreCandidate g c) := isCandidate_candidateAmong c.shedList
  constructor
  · intro found
    rwa [found] at spec
  · rintro ⟨ahead, e, behind, split, rfl, first⟩
    cases found : restoreCandidate g c with
    | none => exact absurd first.1 ((restoreCandidate_eq_none_iff g c).mp found e (by simp [split]))
    | some m =>
        rw [found] at spec
        obtain ⟨ahead', e', behind', split', rfl, first'⟩ := spec
        rw [first.unique first' (split.symm.trans split')]

end Sys2Proof.Machine
end

section
/-! SUPPORT. Overload shedding: the test of the condition, the attempt, the timers' ends, the reports of the SC's acts. -/

namespace Sys2Proof.Machine

/-! ### The overload condition (R95) -/

/-- The bus is live, and L stands above the overload share of C. -/
def Overloads (s : State) : Prop :=
  s.fli.inputs.busLive = true ∧ s.cfg.overload * s.pt.figs.capacity < s.pt.figs.load * 100

theorem overloaded_iff (s : State) : overloaded s = true ↔ Overloads s := by
  simp [overloaded, Overloads]

section
variable {c : Sc} {s : State}

theorem overloadTest_begins (heavy : Overloads s) (calm : c.overload = false) (noWindow : c.window = none)
    (noSettle : c.settle = none) : overloadTest c s = { c with overload := true, window := some 2000 } := by
  rw [overloadTest, if_pos ((overloaded_iff s).mpr heavy), if_pos]
  simp [calm, noWindow, noSettle]

theorem overloadTest_stays (heavy : Overloads s)
    (going : c.overload = true ∨ c.window.isSome = true ∨ c.settle.isSome = true) :
    overloadTest c s = { c with overload := true } := by
  rw [overloadTest, if_pos ((overloaded_iff s).mpr heavy), if_neg]
  rcases going with h | h | h <;> simp [h, ← Option.not_isSome]

theorem overloadTest_ceases (light : ¬ Overloads s) :
    overloadTest c s = { c with overload := false, window := none, waiting := false } :=
  if_neg (mt (overloaded_iff s).mp light)

/-! ### The attempt (R96, R97) -/

theorem shedAttempt_headless (h : shedCandidate s.cfg.order c = none) :
    shedAttempt c s = quiet { c with waiting := true } := by
  rw [shedAttempt, h]

theorem shedAttempt_waits {k : FeederClass} {n : FeederId} (h : shedCandidate s.cfg.order c = some (k, n))
    (lower : peerLower s k = true) : shedAttempt c s = quiet { c with waiting := true } := by
  rw [shedAttempt, h]
  exact if_pos lower

theorem shedAttempt_sheds {k : FeederClass} {n : FeederId} (h : shedCandidate s.cfg.order c = some (k, n))
    (alone : peerLower s k = false) : shedAttempt c s = shedOne c n := by
  rw [shedAttempt, h]
  exact if_neg (Bool.eq_false_iff.mp alone)

/-- A waiting attempt repeated in vain: no class has a head, or a peer shows a lower class (R96). -/
theorem shedAttempt_vain (waits : c.waiting = true) (h : shedCandidate s.cfg.order c = none ∨
    ∃ k n, shedCandidate s.cfg.order c = some (k, n) ∧ peerLower s k = true) : shedAttempt c s = quiet c := by
  have still : ({ c with waiting := true } : Sc) = c := by
    cases c
    subst waits
    rfl
  rcases h with headless | ⟨k, n, found, lower⟩
  · rw [shedAttempt_headless headless, still]
  · rw [shedAttempt_waits found lower, still]

/-! ### The ends of the timers (R95, R97, R103) -/

theorem confirmWindowEnd_stopped (h : c.window = none) : confirmWindowEnd c s = quiet c := by
  simp [confirmWindowEnd, h]

theorem confirmWindowEnd_calm (h : c.window.isSome = true) (calm : c.overload = false) :
    confirmWindowEnd c s = ({ c with window := none }, [.sc .restoreTest]) := by
  obtain ⟨w, hw⟩ := Option.isSome_iff_exists.mp h
  simp [confirmWindowEnd, hw, calm, quiet, Act.andThen]

theorem confirmWindowEnd_attempt (h : c.window.isSome = true) (heavy : c.overload = true) :
    confirmWindowEnd c s =
      (shedAttempt { c with window := none } s).andThen fun d => (d, [.sc .restoreTest]) := by
  obtain ⟨w, hw⟩ := Option.isSome_iff_exists.mp h
  simp [confirmWindowEnd, hw, heavy]

theorem settleEnd_stopped (h : c.settle = none) : settleEnd c = quiet c := by
  simp [settleEnd, h]

theorem settleEnd_running (h : c.settle.isSome = true) : settleEnd c =
    ({ c with
        settle := none, window := if c.overload = true ∧ c.window = none then some 2000 else c.window },
      [.sc .restoreTest]) := by
  obtain ⟨w, hw⟩ := Option.isSome_iff_exists.mp h
  simp [settleEnd, hw]

theorem spacingEnd_stopped (h : c.spacing = none) : spacingEnd c = quiet c := by
  simp [spacingEnd, h]

theorem spacingEnd_running (h : c.spacing.isSome = true) :
    spacingEnd c = ({ c with spacing := none }, [.sc .restoreTest]) := by
  obtain ⟨w, hw⟩ := Option.isSome_iff_exists.mp h
  simp [spacingEnd, hw]

/-! ### Changed figures, results of commands, the summary (R92, R95, R96) -/

theorem scFigures_power (cls : Bool) (h : cls = false ∨ (overloadTest c s).waiting = false) :
    scFigures c s true cls = (overloadTest c s, [.sc .restoreTest]) := by
  rcases h with h | h <;> simp [scFigures, h, quiet, Act.andThen]

theorem scFigures_class : scFigures c s false true = if c.waiting then shedAttempt c s else quiet c := by
  cases h : c.waiting <;> simp [scFigures, h, quiet, Act.andThen]

theorem scChanged_quiet (h : c.waiting = false ∨ shedCandidate s.cfg.order c = none ∨
      ∃ k n, shedCandidate s.cfg.order c = some (k, n) ∧ peerLower s k = true) :
    scChanged c s = ({ c with summary := summaryOf s.cfg c },
      if summaryOf s.cfg c = c.summary then [] else [.pt .reportable]) := by
  have tried : (if c.waiting then shedAttempt { c with summary := summaryOf s.cfg c } s
      else quiet { c with summary := summaryOf s.cfg c }) = quiet { c with summary := summaryOf s.cfg c } := by
    by_cases waits : c.waiting = true
    · rw [if_pos waits]
      exact shedAttempt_vain (c := { c with summary := summaryOf s.cfg c }) waits (h.resolve_left (by simp [waits]))
    · exact if_neg waits
  simp only [scChanged, tried, quiet_fst, quiet_snd, List.append_nil]

theorem scChanged_sheds {k : FeederClass} {n : FeederId} (waits : c.waiting = true)
    (found : shedCandidate s.cfg.order c = some (k, n)) (alone : peerLower s k = false) :
    scChanged c s = ({ (shedOne c n).1 with summary := summaryOf s.cfg c },
      (if summaryOf s.cfg c = c.summary then [] else [.pt .reportable]) ++ (shedOne c n).2) := by
  have tried : shedAttempt { c with summary := summaryOf s.cfg c } s =
      shedOne { c with summary := summaryOf s.cfg c } n := shedAttempt_sheds found alone
  unfold scChanged
  dsimp only
  rw [if_pos waits, tried]
  rfl
end

/-- The reports of a result of a command or a hand operation: restoration is tested as the list has changed or the FON in
flight has ended. -/
theorem scDone_told (c d : Sc) : (scDone c d).2 = .sc .changed ::
    (if d.shedList ≠ c.shedList ∨ (c.fonInFlight = true ∧ d.fonInFlight = false) then [.sc .restoreTest] else []) := by
  simp only [scDone, Bool.not_eq_true]

end Sys2Proof.Machine
end

section
/-! SUPPORT. The dead-bus shed: the feeders it takes, their records and their entries on the shed list (R98, R99). -/

namespace Sys2Proof.Machine

/-- A feeder a dead bus sheds: of a sheddable class, not FAILED, closed or with a FON in flight (R98). -/
def DeadBusHit (o : ClassOrder) (c : Sc) (n : FeederId) : Prop :=
  (∃ k ∈ o.rising, n ∈ c.rotation k) ∧ (c.recs.get n).failed = none ∧
    ((c.recs.get n).closed = true ∨ (c.recs.get n).inFlight = some .fon)

theorem mem_deadBusFeeders {o : ClassOrder} {c : Sc} {n : FeederId} :
    n ∈ deadBusFeeders o c ↔ DeadBusHit o c n := by
  simp [deadBusFeeders, DeadBusHit]

theorem deadBusFeeders_eq (o : ClassOrder) (c : Sc) : deadBusFeeders o c =
    (o.rising.flatMap c.rotation).filter fun n => decide ((c.recs.get n).failed = none ∧
      ((c.recs.get n).closed = true ∨ (c.recs.get n).inFlight = some .fon)) := by
  refine List.filter_congr fun n _ => ?_
  rw [Bool.eq_iff_iff]
  simp

/-! ### The records -/

/-- A record with the FOFF of a dead-bus shed in flight; an FOFF of an overload shed carries on. -/
def Feeder.deadBus (r : Feeder) : Feeder :=
  { r with
    steady := false
    inFlight := if r.inFlight = some .foffOverload then some .foffOverload else some .foffDeadBus }

theorem Feeder.deadBus_deadBus (r : Feeder) : r.deadBus.deadBus = r.deadBus := by
  unfold deadBus
  split <;> simp_all

theorem deadBusMark_get_same (c : Sc) (n : FeederId) :
    (deadBusMark c n).recs.get n = (c.recs.get n).deadBus := Quad.get_put_same ..

theorem deadBusMark_get_other (c : Sc) {n m : FeederId} (h : m ≠ n) :
    (deadBusMark c n).recs.get m = c.recs.get m := Quad.get_put_other _ _ h

theorem foldl_deadBusMark_get (l : List FeederId) (c : Sc) (n : FeederId) :
    (l.foldl deadBusMark c).recs.get n = if n ∈ l then (c.recs.get n).deadBus else c.recs.get n := by
  induction l generalizing c with
  | nil => rfl
  | cons m l ih =>
      rw [List.foldl_cons, ih]
      by_cases h : n = m
      · subst h
        simp [deadBusMark_get_same, Feeder.deadBus_deadBus]
      · simp [deadBusMark_get_other c h, h]

/-! ### The shed list -/

/-- The entries of a list once every feeder of `fs` has been entered with cause DEAD BUS. -/
def enterAll (l : List ShedEntry) (fs : List FeederId) : List ShedEntry :=
  fs.foldl (fun l n => enterShed l n .deadBus) l

theorem foldl_deadBusMark_shedList (l : List FeederId) (c : Sc) :
    (l.foldl deadBusMark c).shedList = enterAll c.shedList l := by
  induction l generalizing c with
  | nil => rfl
  | cons m l ih => exact ih _

theorem mem_enterShed {l : List ShedEntry} {n : FeederId} {why : ShedCause} {e : ShedEntry} :
    e ∈ enterShed l n why ↔ e = ⟨n, why⟩ ∨ (e ∈ l ∧ e.feeder ≠ n) := by
  rw [enterShed_eq]
  split
  next there =>
    obtain ⟨x, hx, hn⟩ : ∃ x ∈ l, x.feeder = n := by simpa using there
    rw [List.mem_map]
    constructor
    · rintro ⟨y, hy, rfl⟩
      split
      · exact .inl rfl
      next other => exact .inr ⟨hy, other⟩
    · rintro (rfl | ⟨he, other⟩)
      · exact ⟨x, hx, if_pos hn⟩
      · exact ⟨e, he, if_neg other⟩
  next absent =>
    have others : ∀ x ∈ l, x.feeder ≠ n := by simpa using absent
    rw [List.mem_append, List.mem_singleton, or_comm]
    exact or_congr_right ⟨fun he => ⟨he, others e he⟩, And.left⟩

theorem mem_enterAll {l : List ShedEntry} {fs : List FeederId} {e : ShedEntry} :
    e ∈ enterAll l fs ↔ (e.feeder ∈ fs ∧ e.cause = .deadBus) ∨ (e ∈ l ∧ e.feeder ∉ fs) := by
  induction fs generalizing l with
  | nil => simp [enterAll]
  | cons n fs ih =>
      rw [enterAll, List.foldl_cons, ← enterAll, ih, mem_enterShed]
      rcases e with ⟨m, why⟩
      by_cases h : m = n
      · subst h
        by_cases hm : m ∈ fs <;> simp [hm]
      · simp [h]

theorem enterShed_feeders (l : List ShedEntry) (n : FeederId) (why : ShedCause) :
    (enterShed l n why).map (·.feeder) =
      l.map (·.feeder) ++ if l.any (·.feeder == n) then [] else [n] := by
  rw [enterShed_eq]
  split
  · rw [List.append_nil, List.map_map]
    refine List.map_congr_left fun e _ => ?_
    dsimp only [Function.comp]
    split
    next same => exact same.symm
    · rfl
  · rw [List.map_append]
    rfl

/-- The feeders listed before keep their places. -/
theorem enterAll_feeders_extend (l : List ShedEntry) (fs : List FeederId) :
    ∃ new, (enterAll l fs).map (·.feeder) = l.map (·.feeder) ++ new := by
  induction fs generalizing l with
  | nil => exact ⟨[], (List.append_nil _).symm⟩
  | cons n fs ih =>
      obtain ⟨new, behind⟩ := ih (enterShed l n .deadBus)
      exact ⟨_, behind.trans (by rw [enterShed_feeders, List.append_assoc])⟩

/-- Entering one feeder lists no other. -/
theorem any_enterShed_other (l : List ShedEntry) {n m : FeederId} (why : ShedCause) (h : m ≠ n) :
    (enterShed l n why).any (·.feeder == m) = l.any (·.feeder == m) := by
  rw [Bool.eq_iff_iff]
  simp only [List.any_eq_true, mem_enterShed, beq_iff_eq]
  constructor
  · rintro ⟨e, rfl | ⟨he, -⟩, rfl⟩
    · exact absurd rfl h
    · exact ⟨e, he, rfl⟩
  · rintro ⟨e, he, rfl⟩
    exact ⟨e, .inr ⟨he, h⟩, rfl⟩

/-- Each feeder keeps its place, and those not listed before come behind, in the order they are shed. -/
theorem enterAll_feeders (l : List ShedEntry) {fs : List FeederId} (once : fs.Nodup) :
    (enterAll l fs).map (·.feeder) = l.map (·.feeder) ++ fs.filter fun n => !(l.any (·.feeder == n)) := by
  induction fs generalizing l with
  | nil => exact (List.append_nil _).symm
  | cons n fs ih =>
      obtain ⟨absent, once⟩ := List.nodup_cons.mp once
      have others : fs.filter (fun m => !((enterShed l n .deadBus).any (·.feeder == m))) =
          fs.filter fun m => !(l.any (·.feeder == m)) :=
        List.filter_congr fun m hm => by rw [any_enterShed_other l _ (ne_of_mem_of_not_mem hm absent)]
      calc (enterAll l (n :: fs)).map (·.feeder)
        _ = (enterShed l n .deadBus).map (·.feeder) ++ fs.filter fun m => !(l.any (·.feeder == m)) :=
          (ih _ once).trans (congrArg _ others)
        _ = _ := by
          rw [enterShed_feeders, List.filter_cons, List.append_assoc]
          cases l.any (·.feeder == n) <;> rfl

end Sys2Proof.Machine
end

section
/-! SUPPORT. Restoration, and shedding and restoration as a whole (O45). -/

namespace Sys2Proof.Machine

/-! ### The restore test (R101 to R103) -/

section
variable {c : Sc} {s : State}

theorem mayRestore_iff : mayRestore c s = true ↔ s.fli.inputs.busLive = true ∧ c.window = none ∧ c.settle = none ∧
    c.spacing = none ∧ c.fonInFlight = false ∧ s.cc.state ≠ .parallel ∧ s.cc.state ≠ .deadbus := by
  simp [mayRestore, and_assoc]

theorem restoreTest_closed (h : mayRestore c s = false) : restoreTest c s = quiet c := by
  simp [restoreTest, h]

theorem restoreTest_idle (h : restoreCandidate s.cfg c = none) : restoreTest c s = quiet c := by
  simp [restoreTest, h]

section
variable {n : FeederId} (may : mayRestore c s = true) (found : restoreCandidate s.cfg c = some n)
include may found

theorem restoreTest_fits (h : (s.pt.figs.load + (c.recs.get n).lastKw.getD 0) * 100 ≤
      s.cfg.restore * s.pt.figs.capacity) :
    restoreTest c s =
      ({ c.putRec n { c.recs.get n with inFlight := some .fon, steady := false } with
          spacing := some (5000 + 200 * s.cfg.station) }, [.fli (.command (.feeder n) .on)]) := by
  simp [restoreTest, may, found, fits, h, restoreSpacing, Nat.mul_comm s.cfg.station]

theorem restoreTest_unfit (h : ¬ (s.pt.figs.load + (c.recs.get n).lastKw.getD 0) * 100 ≤
      s.cfg.restore * s.pt.figs.capacity) : restoreTest c s = quiet c := by
  simp [restoreTest, may, found, fits, h]
end

end

/-! ### O45, clause by clause -/

section
variable {s : State} (hp : s.phase = .running) (hf : s.cfg.anyFeeder = true)
include hp hf

/-- A confirm window that ends in overload hands on what the attempt does, and then the restore test. -/
theorem run_window_attempt {c : Sc} {rs : List Report} (window : s.sc.window.isSome = true)
    (heavy : s.sc.overload = true) (h : shedAttempt { s.sc with window := none } s = (c, rs)) :
    s.run [.sc .window] = State.handOn { s with sc := c } 1 (rs ++ [.sc .restoreTest]) := by
  refine run_sc (isRunning_isUp hp) ?_
  rw [scHandle_window hp hf, confirmWindowEnd_attempt window heavy, h]
  rfl

theorem deliver_restoreTest_void (h : restoreTest s.sc s = quiet s.sc) : deliver (.sc .restoreTest) s = (s, []) :=
  deliver_sc_void ((scHandle_restoreTest hp hf).trans h)

/-- What the peers' changed class does: a waiting attempt is repeated. -/
theorem deliver_class_repeated {c : Sc} {rs : List Report} (waits : s.sc.waiting = true)
    (h : shedAttempt s.sc s = (c, rs)) : deliver (.sc (.figures false true)) s = ({ s with sc := c }, rs) :=
  deliver_sc_of (((scHandle_figures hp hf _ _).trans scFigures_class).trans ((if_pos waits).trans h))

theorem deliver_busLive_true :
    deliver (.sc (.busLive true)) s = deliver (.sc .restoreTest) { s with sc := overloadTest s.sc s } := by
  have tested := scHandle_restoreTest (s := { s with sc := overloadTest s.sc s }) hp hf
  rw [deliver_sc, deliver_sc, tested, scHandle_busLive hp hf]
  rfl

theorem deliver_deadBus : deliver (.sc (.busLive false)) s =
    ({ s with sc := (deadBusShed s.sc s).1 },
      (deadBusFeeders s.cfg.order s.sc).map (fun n => .fli (.command (.feeder n) .off)) ++ [.sc .changed]) :=
  deliver_sc_of ((scHandle_busLive hp hf false).trans rfl)
end

section
variable (c : Sc) (s : State)

theorem deadBusShed_get (n : FeederId) : (deadBusShed c s).1.recs.get n =
    if n ∈ deadBusFeeders s.cfg.order c then (c.recs.get n).deadBus else c.recs.get n :=
  foldl_deadBusMark_get ..

theorem deadBusShed_shedList :
    (deadBusShed c s).1.shedList = enterAll c.shedList (deadBusFeeders s.cfg.order c) :=
  foldl_deadBusMark_shedList ..
end

/-- The FOFF of a feeder is handed over when the dead bus sheds it, and only then. -/
theorem foff_mem_deadBus {l : List FeederId} {n : FeederId} :
    Report.fli (.command (.feeder n) .off) ∈
      l.map (fun n => Report.fli (.command (.feeder n) .off)) ++ [.sc .changed] ↔ n ∈ l := by
  simp

/-- Settles O45: the candidates and the summary by the lists, each message by the act it leads to, the dead bus by its
fold over the feeders it sheds. -/
theorem sheddingAndRestoration : Obligations.SheddingAndRestoration := by
  refine ⟨fun o c => ⟨shedCandidate_eq_some_iff o c, ?_⟩, peerLower_eq_true_iff,
    fun g c => ⟨restoreCandidate_eq_some_iff g c, restoreCandidate_eq_none_iff g c⟩,
    fun c s => ⟨overloadTest_begins, overloadTest_stays, overloadTest_ceases⟩, fun s hp hf => ?_,
    fun g c => ⟨summaryOf_cls_eq_none_iff g c, summaryOf_cls_eq_some_iff g c, summaryOf_count g c⟩,
    fun c n => ⟨fun k => ⟨scDone_told .., scDone_told ..⟩, fun b => scDone_told ..⟩, fun s hp hf => ?_⟩
  · exact (shedCandidate_eq_none_iff o c).trans o.forall_rising
  · have up := isRunning_isUp hp
    refine ⟨fun stopped => ?_, fun window calm => ?_, fun window heavy vain => ?_,
      fun k n window heavy found alone => ?_, fun stopped => ?_, fun settle => ?_, fun stopped => ?_,
      fun spacing => ?_, ⟨fun cls h => ?_, deliver_busLive_true hp hf⟩,
      ⟨fun idle => ?_, fun waits headless => ?_, fun k n waits found => ⟨fun lower => ?_, fun alone => ?_⟩⟩, ?_,
      fun n found live noWindow noSettle noSpacing noFon notParallel notDeadbus => ?_, fun h => ?_⟩
    -- the timers' ends
    · exact congrArg Host.Outcome.next
        (run_sc_void up ((scHandle_window hp hf).trans (confirmWindowEnd_stopped stopped)))
    · exact congrArg Host.Outcome.next (run_sc up ((scHandle_window hp hf).trans (confirmWindowEnd_calm window calm)))
    · have waits : shedAttempt { s.sc with window := none } s = quiet { s.sc with window := none, waiting := true } := by
        rcases vain with headless | ⟨k, n, found, lower⟩
        · exact shedAttempt_headless headless
        · exact shedAttempt_waits found lower
      exact congrArg Host.Outcome.next (run_window_attempt hp hf window heavy waits)
    · exact congrArg Host.Outcome.next (run_window_attempt hp hf window heavy
        (shedAttempt_sheds (c := { s.sc with window := none }) found alone))
    · exact congrArg Host.Outcome.next (run_sc_void up ((scHandle_settle hp hf).trans (settleEnd_stopped stopped)))
    · exact congrArg Host.Outcome.next (run_sc up ((scHandle_settle hp hf).trans (settleEnd_running settle)))
    · exact congrArg Host.Outcome.next (run_sc_void up ((scHandle_spacing hp hf).trans (spacingEnd_stopped stopped)))
    · exact congrArg Host.Outcome.next (run_sc up ((scHandle_spacing hp hf).trans (spacingEnd_running spacing)))
    -- changed figures
    · exact deliver_sc_of ((scHandle_figures hp hf true cls).trans (scFigures_power cls h))
    · exact deliver_sc_void (((scHandle_figures hp hf _ _).trans scFigures_class).trans (if_neg (by simp [idle])))
    · exact deliver_class_repeated hp hf waits (shedAttempt_vain waits (.inl headless))
    · exact deliver_class_repeated hp hf waits (shedAttempt_vain waits (.inr ⟨k, n, found, lower⟩))
    · exact deliver_class_repeated hp hf waits (shedAttempt_sheds found alone)
    -- the dead bus
    · dsimp only
      rw [deliver_deadBus hp hf]
      refine ⟨rfl, rfl, rfl, rfl, fun n hit => ?_, fun n spared => ?_, ?_⟩
      · have hit := mem_deadBusFeeders.mpr hit
        dsimp only
        rw [deadBusShed_shedList, deadBusShed_get, if_pos hit]
        refine ⟨mem_enterAll.mpr (.inl ⟨hit, rfl⟩), ?_, rfl, foff_mem_deadBus.mpr hit⟩
        rintro e he rfl
        rcases mem_enterAll.mp he with ⟨-, cause⟩ | ⟨-, absent⟩
        · exact cause
        · exact absurd hit absent
      · have spared := mt mem_deadBusFeeders.mp spared
        dsimp only
        rw [deadBusShed_shedList, deadBusShed_get, if_neg spared]
        refine ⟨rfl, mt foff_mem_deadBus.mp spared, fun why => ?_⟩
        simp [mem_enterAll, spared]
      · rw [deadBusShed_shedList]
        exact enterAll_feeders_extend ..
    -- restoration
    · have may := mayRestore_iff.mpr ⟨live, noWindow, noSettle, noSpacing, noFon, notParallel, notDeadbus⟩
      exact ⟨fun fits => deliver_sc_of ((scHandle_restoreTest hp hf).trans (restoreTest_fits may found fits)),
        fun unfit => deliver_restoreTest_void hp hf (restoreTest_unfit may found unfit)⟩
    · refine deliver_restoreTest_void hp hf ?_
      by_cases may : mayRestore s.sc s = true
      · obtain ⟨live, noWindow, noSettle, noSpacing, noFon, notParallel, notDeadbus⟩ := mayRestore_iff.mp may
        simp only [live, noWindow, noSettle, noSpacing, noFon, notParallel, notDeadbus] at h
        exact restoreTest_idle (by simpa using h)
      · exact restoreTest_closed (Bool.eq_false_iff.mpr may)
  · have changed := scHandle_changed hp hf
    refine ⟨fun h => ?_, fun k n waits found => ⟨fun lower => ?_, fun alone => ?_⟩, fun st => ?_, ?_, ?_⟩
    · exact deliver_sc_of (changed.trans (scChanged_quiet (h.imp_right .inl)))
    · exact deliver_sc_of (changed.trans (scChanged_quiet (.inr (.inr ⟨k, n, found, lower⟩))))
    · exact deliver_sc_of (changed.trans (scChanged_sheds waits found alone))
    · rw [deliver_sc, deliver_sc, scHandle_handover hp hf, scHandle_restoreTest hp hf]
      split <;> rfl
    · rw [deliver_sc, deliver_sc, scHandle_endOfStart hp hf, scHandle_busLive hp hf]
    · rw [deliver_deadBus hp hf, ← deadBusFeeders_eq]
      exact ⟨rfl, fun once => (congrArg _ (deadBusShed_shedList s.sc s)).trans (enterAll_feeders _ once)⟩

end Sys2Proof.Machine
end

section
/-! SUPPORT. The lot queue: what keeps it sound, and what a shrink and a gain make of it (R107, R108, R122, R123). -/

namespace Sys2Proof.Machine

/-! ### Lots -/

/-- The decilitres in the lots of a queue (Table 6-1). -/
def contents (lots : List Lot) : Nat := (lots.map (·.remaining)).sum

theorem book_eq (f : Fu) : f.book = (contents f.lots : Int) - (f.overdraw : Int) := rfl

@[simp] theorem contents_nil : contents [] = 0 := rfl

@[simp] theorem contents_cons (l : Lot) (rest : List Lot) : contents (l :: rest) = l.remaining + contents rest := by
  simp [contents]

@[simp] theorem contents_append (l r : List Lot) : contents (l ++ r) = contents l + contents r := by simp [contents]

/-- A lot that `g` more decilitres have been delivered into. -/
def Lot.raised (l : Lot) (g : Nat) : Lot := { l with delivered := l.delivered + g, remaining := l.remaining + g }

@[simp] theorem Lot.raised_number (l : Lot) (g : Nat) : (l.raised g).number = l.number := rfl

theorem fillLot_same {n : Nat} {l : Lot} (h : l.number = n) : fillLot n l = l.raised 1 := if_pos h

theorem fillLot_other {n : Nat} {l : Lot} (h : l.number ≠ n) : fillLot n l = l := if_neg h

@[simp] theorem fillLot_number (n : Nat) (l : Lot) : (fillLot n l).number = l.number := by
  unfold fillLot
  split <;> rfl

theorem carries_iff {f : Fu} {n : Nat} : f.carries n = true ↔ ∃ l ∈ f.lots, l.number = n := by simp [Fu.carries]

theorem not_carries_iff {f : Fu} {n : Nat} : f.carries n = false ↔ ∀ l ∈ f.lots, l.number ≠ n := by simp [Fu.carries]

/-! ### Sound queues -/

theorem lotsSound_nil : LotsSound [] := ⟨by decide, nofun, nofun, List.nodup_nil⟩

theorem LotsSound.tail {l : Lot} {rest : List Lot} (h : LotsSound (l :: rest)) : LotsSound rest := by
  obtain ⟨len, full, whole, once⟩ := h
  exact ⟨Nat.le_of_succ_le len, fun x hx => full x (.tail _ hx), fun x hx => whole x (List.mem_of_mem_tail hx),
    once.sublist (((List.sublist_cons_self l rest).map _).filter _)⟩

/-- The oldest lot alone may be drawn from. -/
theorem LotsSound.drawn {l : Lot} {rest : List Lot} (h : LotsSound (l :: rest)) {n : Nat} (left : 1 ≤ n) :
    LotsSound ({ l with remaining := n } :: rest) := by
  obtain ⟨len, full, whole, once⟩ := h
  refine ⟨len, fun x hx => ?_, whole, once⟩
  rcases List.mem_cons.mp hx with rfl | hx
  · exact left
  · exact full x (.tail _ hx)

/-- Each lot of a queue with some decilitres, or none, delivered into it. -/
def Raised : List Lot → List Lot → Prop := List.Forall₂ fun l m => ∃ g, m = l.raised g

theorem raised_refl (lots : List Lot) : Raised lots lots := List.forall₂_same.mpr fun _ _ => ⟨0, rfl⟩

theorem raised_fillLot (n : Nat) (lots : List Lot) : Raised lots (lots.map (fillLot n)) := by
  refine List.forall₂_map_right_iff.mpr (List.forall₂_same.mpr fun l _ => ?_)
  by_cases hit : l.number = n
  · exact ⟨1, fillLot_same hit⟩
  · exact ⟨0, fillLot_other hit⟩

theorem raised_last (older : List Lot) (l : Lot) (g : Nat) : Raised (older ++ [l]) (older ++ [l.raised g]) :=
  List.rel_append (raised_refl older) (.cons ⟨g, rfl⟩ .nil)

theorem Raised.exists_of_mem {lots more : List Lot} (h : Raised lots more) {m : Lot} (hm : m ∈ more) :
    ∃ l ∈ lots, ∃ g, m = l.raised g := by
  induction h with
  | nil => cases hm
  | @cons l _ _ _ first _ ih =>
      rcases List.mem_cons.mp hm with rfl | later
      · exact ⟨l, .head _, first⟩
      · obtain ⟨k, hk, grown⟩ := ih later
        exact ⟨k, .tail _ hk, grown⟩

theorem Raised.numbers {lots more : List Lot} (h : Raised lots more) :
    more.map (·.number) = lots.map (·.number) := by
  induction h with
  | nil => rfl
  | cons first _ ih =>
      obtain ⟨g, rfl⟩ := first
      simp [ih]

theorem Raised.tail {lots more : List Lot} (h : Raised lots more) : Raised lots.tail more.tail := by
  cases h with
  | nil => exact .nil
  | cons _ rest => exact rest

/-- A queue stays sound when more is delivered into its lots. -/
theorem LotsSound.raise {lots more : List Lot} (h : LotsSound lots) (grown : Raised lots more) : LotsSound more := by
  obtain ⟨len, full, whole, once⟩ := h
  refine ⟨grown.length_eq ▸ len, fun m hm => ?_, fun m hm => ?_, grown.numbers.symm ▸ once⟩
  · obtain ⟨l, hl, g, rfl⟩ := grown.exists_of_mem hm
    exact Nat.le_add_right_of_le (full l hl)
  · obtain ⟨l, hl, g, rfl⟩ := grown.tail.exists_of_mem hm
    exact congrArg (· + g) (whole l hl)

/-- A lot entered behind a queue with room for it: whole unless it is the first, with a number no other lot has. -/
theorem LotsSound.enter {lots : List Lot} (h : LotsSound lots) {l : Lot} (room : lots.length < 8)
    (holds : 1 ≤ l.remaining) (whole : lots ≠ [] → l.remaining = l.delivered)
    (new : l.number ≠ 0 → ∀ m ∈ lots, m.number ≠ l.number) : LotsSound (lots ++ [l]) := by
  obtain ⟨-, full, behind, once⟩ := h
  refine ⟨by simpa using room, fun m hm => ?_, fun m hm => ?_, ?_⟩
  · rcases List.mem_append.mp hm with old | entered
    · exact full m old
    · exact List.mem_singleton.mp entered ▸ holds
  · cases lots with
    | nil => cases hm
    | cons first rest =>
        rcases List.mem_append.mp hm with old | entered
        · exact behind m old
        · exact List.mem_singleton.mp entered ▸ whole nofun
  · rw [List.map_append, List.filter_append, List.nodup_append]
    refine ⟨once, ?_, fun a ha b hb => ?_⟩
    · exact (List.nodup_singleton l.number).filter _
    · obtain ⟨⟨m, hm, rfl⟩, -⟩ : (∃ m ∈ lots, m.number = a) ∧ a ≠ 0 := by simpa using ha
      obtain ⟨rfl, carries⟩ : b = l.number ∧ b ≠ 0 := by simpa using hb
      exact new carries m hm

/-! ### A shrink and a gain -/

theorem contents_shrinkLots (held : Nat) (lots : List Lot) (q : Nat) :
    contents (shrinkLots held lots q).lots = contents lots - q := by
  induction lots generalizing held q with
  | nil => simp [shrinkLots]
  | cons l rest ih =>
      unfold shrinkLots
      split
      next nothing => simp [nothing]
      split
      · simp only [contents_cons]; omega
      · simp only [ih, contents_cons]; omega

theorem LotsSound.shrink {lots : List Lot} (h : LotsSound lots) (held q : Nat) :
    LotsSound (shrinkLots held lots q).lots := by
  induction lots generalizing held q with
  | nil => exact h
  | cons l rest ih =>
      unfold shrinkLots
      split
      · exact h
      split
      · exact h.drawn (by omega)
      · exact ih h.tail _ _

/-- The lot a gain enters (R123). -/
def gainedLot (price g clock : Nat) (valid : Bool) : Lot := ⟨0, price, g, g, clock, valid⟩

theorem gainLots_nil (held g clock : Nat) (valid : Bool) :
    gainLots [] held g clock valid = [gainedLot held g clock valid] := rfl

theorem gainLots_newest {older : List Lot} {l : Lot} (h : l.number = 0 ∨ 8 ≤ (older ++ [l]).length)
    (held g clock : Nat) (valid : Bool) : gainLots (older ++ [l]) held g clock valid = older ++ [l.raised g] := by
  simp only [gainLots, List.getLast?_concat, List.dropLast_concat, if_pos h, Lot.raised]

theorem gainLots_entered {older : List Lot} {l : Lot} (h : l.number ≠ 0) (room : (older ++ [l]).length < 8)
    (held g clock : Nat) (valid : Bool) :
    gainLots (older ++ [l]) held g clock valid = older ++ [l] ++ [gainedLot l.price g clock valid] := by
  have new : ¬ (l.number = 0 ∨ 8 ≤ (older ++ [l]).length) := by omega
  simp only [gainLots, List.getLast?_concat, if_neg new, gainedLot]

/-- A gain raises the newest lot or enters one. -/
theorem gainLots_cases (lots : List Lot) (held g clock : Nat) (valid : Bool) :
    (∃ older l, lots = older ++ [l] ∧ gainLots lots held g clock valid = older ++ [l.raised g]) ∨
      lots.length < 8 ∧ ∃ price, gainLots lots held g clock valid = lots ++ [gainedLot price g clock valid] := by
  rcases List.eq_nil_or_concat' lots with rfl | ⟨older, l, rfl⟩
  · exact .inr ⟨by decide, held, rfl⟩
  · by_cases newest : l.number = 0 ∨ 8 ≤ (older ++ [l]).length
    · exact .inl ⟨older, l, rfl, gainLots_newest newest ..⟩
    · have room : (older ++ [l]).length < 8 := by omega
      exact .inr ⟨room, l.price, gainLots_entered (fun zero => newest (.inl zero)) room ..⟩

theorem contents_gainLots (lots : List Lot) (held g clock : Nat) (valid : Bool) :
    contents (gainLots lots held g clock valid) = contents lots + g := by
  rcases gainLots_cases lots held g clock valid with ⟨older, l, rfl, gained⟩ | ⟨-, price, gained⟩
  · simp [gained, Lot.raised, Nat.add_assoc]
  · simp [gained, gainedLot]

theorem LotsSound.gain {lots : List Lot} (h : LotsSound lots) (held : Nat) {g : Nat} (gained : 1 ≤ g) (clock : Nat)
    (valid : Bool) : LotsSound (gainLots lots held g clock valid) := by
  rcases gainLots_cases lots held g clock valid with ⟨older, l, rfl, raised⟩ | ⟨room, price, entered⟩
  · exact raised ▸ h.raise (raised_last older l g)
  · exact entered ▸ h.enter room gained (fun _ => rfl) fun numbered => absurd rfl numbered

end Sys2Proof.Machine
end

section
/-! SUPPORT. The fuel book and the visit are kept sound by whatever reaches the FU and the SR (O57). -/

namespace Sys2Proof.Machine

/-! ### A burned decilitre (R109 to R111) -/

theorem burnOne_draws {f : Fu} {l : Lot} {rest : List Lot} (lots : f.lots = l :: rest) (more : 1 < l.remaining) :
    burnOne f = ({ f with lots := { l with remaining := l.remaining - 1 } :: rest },
      [.bu (.cost l.price), .sr (.touch .fuelBook)]) := by
  simp only [burnOne, lots, Nat.not_le.mpr more, if_false]

theorem burnOne_empties {f : Fu} {l : Lot} {rest : List Lot} (lots : f.lots = l :: rest) (last : l.remaining ≤ 1) :
    burnOne f = ({ f with lots := rest, heldPrice := l.price },
      [.bu (.cost l.price), lotChange l rest, .sr (.touch .fuelBook)]) := by
  simp only [burnOne, lots, last, if_true]

theorem burnOne_overdraws {f : Fu} (lots : f.lots = []) (room : f.overdraw < maxOverdraw) :
    burnOne f = ({ f with overdraw := f.overdraw + 1 }, [.bu (.cost f.heldPrice), .sr (.touch .fuelBook)]) := by
  simp only [burnOne, lots, room, if_true]

theorem burnOne_dry {f : Fu} (lots : f.lots = []) (most : maxOverdraw ≤ f.overdraw) :
    burnOne f = (f, [.bu (.cost f.heldPrice)]) := by
  simp only [burnOne, lots, Nat.not_lt.mpr most, if_false]

/-! ### A fill decilitre (R112, R113, R138) -/

/-- The flow stall timer once a fill decilitre has come (R138). -/
def Fu.stall (f : Fu) (v : Visit) : Timer := if v.state = .flowing then some 120000 else f.flowStall

theorem fillOne_repays {f : Fu} {v : Visit} (owing : 0 < f.overdraw) (clock : Nat) (valid : Bool) :
    fillOne f clock valid v =
      { f with
        overdraw := f.overdraw - 1, flowStall := f.stall v
        visit := some { v with visitDl := v.visitDl + 1, repaidDl := v.repaidDl + 1, repaying := true } } := by
  simp only [fillOne, owing, if_true, Fu.stall]

theorem fillOne_raises {f : Fu} {v : Visit} (paid : f.overdraw = 0) (carried : f.carries v.number = true) (clock : Nat)
    (valid : Bool) : fillOne f clock valid v =
      { f with
        lots := f.lots.map (fillLot v.number), flowStall := f.stall v
        visit := some { v with visitDl := v.visitDl + 1, repaying := false } } := by
  simp only [fillOne, paid, carried, if_true, Nat.lt_irrefl, if_false, Fu.stall]

/-- The lot a visit opens: the decilitre, and in its delivered count those repaid before it (R113, log 35). -/
def Visit.lot (v : Visit) (clock : Nat) (valid : Bool) : Lot :=
  { number := v.number, price := v.price, remaining := 1, clock := clock, clockValid := valid
    delivered := if v.repaying then v.repaidDl + 1 else 1 }

theorem fillOne_opens {f : Fu} {v : Visit} (paid : f.overdraw = 0) (new : f.carries v.number = false) (clock : Nat)
    (valid : Bool) : fillOne f clock valid v =
      { f with
        lots := f.lots ++ [v.lot clock valid], flowStall := f.stall v
        visit := some { v with visitDl := v.visitDl + 1, repaying := false } } := by
  simp only [fillOne, paid, new, Nat.lt_irrefl, if_false, Bool.false_eq_true, Fu.stall, Visit.lot]

/-! ### The book and the visit -/

/-- The queue has room for a visit in progress, no reconciliation is due, and one that repays overdraw finds the queue
empty (R113, R124, R133, R134). -/
def Fu.Admits (f : Fu) (v : Visit) : Prop :=
  v.number ≠ 0 ∧ (f.lots.length < 8 ∨ f.carries v.number = true) ∧ f.reconTimer = none ∧ f.waitLevel = false ∧
    (v.repaying = true → f.lots = [])

/-- The FU's part of `FuelSound`. -/
structure Fu.Sound (f : Fu) : Prop where
  book : BookSound (fuelBookOf f)
  visit : ∀ v, f.visit = some v → v.inProgress = true → f.Admits v

theorem fuelSound_iff (s : State) : FuelSound s ↔ s.fu.Sound ∧ s.store.fuelBook.Holds BookSound :=
  ⟨fun ⟨book, store, visit⟩ => ⟨⟨book, visit⟩, store⟩, fun ⟨⟨book, visit⟩, store⟩ => ⟨book, store, visit⟩⟩

theorem bookSound_iff (f : Fu) : BookSound (fuelBookOf f) ↔
    LotsSound f.lots ∧ f.overdraw ≤ maxOverdraw ∧ (0 < f.overdraw → f.lots = []) := Iff.rfl

/-- A book without overdraw is as sound as its queue. -/
theorem bookSound_of_paid {f : Fu} (lots : LotsSound f.lots) (paid : f.overdraw = 0) : BookSound (fuelBookOf f) :=
  (bookSound_iff f).mpr ⟨lots, paid ▸ Nat.zero_le _, fun owing => absurd owing (by omega)⟩

/-- Lots in the queue mean no overdraw (R111). -/
theorem BookSound.paid {f : Fu} (h : BookSound (fuelBookOf f)) (lots : f.lots ≠ []) : f.overdraw = 0 := by
  obtain ⟨-, -, only⟩ := h
  exact Nat.eq_zero_of_not_pos fun owing => lots (only owing)

/-- What the book and the visit's room are read from. -/
def Fu.custody (f : Fu) : List Lot × Nat × Timer × Bool := (f.lots, f.overdraw, f.reconTimer, f.waitLevel)

theorem custody_eq_iff {f g : Fu} : g.custody = f.custody ↔
    g.lots = f.lots ∧ g.overdraw = f.overdraw ∧ g.reconTimer = f.reconTimer ∧ g.waitLevel = f.waitLevel := by
  simp [Fu.custody]

theorem BookSound.of_custody {f g : Fu} (h : BookSound (fuelBookOf f)) (same : g.custody = f.custody) :
    BookSound (fuelBookOf g) := by
  obtain ⟨lots, overdraw, -, -⟩ := custody_eq_iff.mp same
  rw [bookSound_iff, lots, overdraw]
  exact h

theorem carries_of_numbers {f g : Fu} (same : g.lots.map (·.number) = f.lots.map (·.number)) (n : Nat) :
    g.carries n = f.carries n := by
  have any (l : List Lot) : l.any (·.number == n) = (l.map (·.number)).any (· == n) := by
    rw [List.any_map]
    rfl
  simp only [Fu.carries, any, same]

/-- The room for a visit depends on the lots' numbers alone. -/
theorem Fu.Admits.of_numbers {f g : Fu} {v w : Visit} (h : f.Admits v)
    (same : g.lots.map (·.number) = f.lots.map (·.number)) (timer : g.reconTimer = f.reconTimer)
    (wait : g.waitLevel = f.waitLevel) (number : w.number = v.number) (mark : w.repaying = true → v.repaying = true) :
    g.Admits w := by
  obtain ⟨named, room, noTimer, noWait, empty⟩ := h
  have len : g.lots.length = f.lots.length := by simpa using congrArg List.length same
  refine ⟨number ▸ named, ?_, timer.trans noTimer, wait.trans noWait, fun m => ?_⟩
  · rw [len, number, carries_of_numbers same]
    exact room
  · simpa [empty (mark m)] using same

theorem Fu.Admits.of_custody {f g : Fu} {v w : Visit} (h : f.Admits v) (same : g.custody = f.custody)
    (number : w.number = v.number) (mark : w.repaying = true → v.repaying = true) : g.Admits w := by
  obtain ⟨lots, -, timer, wait⟩ := custody_eq_iff.mp same
  exact h.of_numbers (lots ▸ rfl) timer wait number mark

/-- A FU with a sound book and a visit its queue admits. -/
theorem Fu.Sound.of_admits {f : Fu} {v : Visit} (book : BookSound (fuelBookOf f)) (visit : f.visit = some v)
    (admits : f.Admits v) : f.Sound :=
  ⟨book, fun _ hw _ => Option.some.inj (visit.symm.trans hw) ▸ admits⟩

/-- A FU with a sound book and no visit in progress. -/
theorem Fu.Sound.of_idle {f : Fu} (book : BookSound (fuelBookOf f)) (idle : f.visiting = false) : f.Sound := by
  refine ⟨book, fun v hv going => ?_⟩
  simp [Fu.visiting, hv, going] at idle

/-- What touches neither the queue nor the visit. -/
theorem Fu.Sound.of_same {f g : Fu} (h : f.Sound) (same : g.custody = f.custody) (visit : g.visit = f.visit) :
    g.Sound :=
  ⟨h.book.of_custody same, fun v hv going => (h.visit v (visit ▸ hv) going).of_custody same rfl id⟩

/-- A visit that moves on: the queue stays, and so do the visit's number and mark. -/
theorem Fu.Sound.of_moved {f g : Fu} {v w : Visit} (h : f.Sound) (hv : f.visit = some v) (going : v.inProgress = true)
    (same : g.custody = f.custody) (hw : g.visit = some w) (number : w.number = v.number)
    (mark : w.repaying = v.repaying) : g.Sound :=
  .of_admits (h.book.of_custody same) hw ((h.visit v hv going).of_custody same number (mark ▸ id))

/-! ### Burns and fills -/

theorem burnOne_sound {f : Fu} (h : f.Sound) : (burnOne f).1.Sound := by
  obtain ⟨lots, most, only⟩ := (bookSound_iff f).mp h.book
  rcases queue : f.lots with _ | ⟨l, rest⟩
  · rcases Nat.lt_or_ge f.overdraw maxOverdraw with room | full
    · rw [burnOne_overdraws queue room]
      exact ⟨⟨lots, room, fun _ => queue⟩, fun v hv going => (h.visit v hv going).of_numbers rfl rfl rfl rfl id⟩
    · rw [burnOne_dry queue full]
      exact h
  · have paid : f.overdraw = 0 := h.book.paid (by simp [queue])
    rw [queue] at lots
    rcases Nat.lt_or_ge 1 l.remaining with more | last
    · rw [burnOne_draws queue more]
      refine ⟨bookSound_of_paid (lots.drawn (by omega)) paid, fun v hv going => ?_⟩
      exact (h.visit v hv going).of_numbers (by rw [queue]; rfl) rfl rfl rfl id
    · rw [burnOne_empties queue last]
      refine ⟨bookSound_of_paid lots.tail paid, fun v hv going => ?_⟩
      obtain ⟨len, -⟩ := lots
      obtain ⟨named, -, timer, wait, empty⟩ := h.visit v hv going
      exact ⟨named, .inl (Nat.lt_of_succ_le len), timer, wait, fun mark => by simp [empty mark] at queue⟩

theorem fillOne_sound {f : Fu} (h : f.Sound) {v : Visit} (hv : f.visit = some v) (going : v.inProgress = true)
    (clock : Nat) (valid : Bool) : (fillOne f clock valid v).Sound := by
  obtain ⟨lots, most, only⟩ := (bookSound_iff f).mp h.book
  have admits := h.visit v hv going
  rcases Nat.eq_zero_or_pos f.overdraw with paid | owing
  · cases carried : f.carries v.number with
    | true =>
        rw [fillOne_raises paid carried]
        exact .of_admits (bookSound_of_paid (lots.raise (raised_fillLot _ _)) paid) rfl
          (admits.of_numbers (raised_fillLot _ _).numbers rfl rfl rfl nofun)
    | false =>
        rw [fillOne_opens paid carried]
        obtain ⟨named, room, timer, wait, empty⟩ := admits
        have room : f.lots.length < 8 := room.resolve_right (by simp [carried])
        refine .of_admits (bookSound_of_paid (lots.enter room (Nat.le_refl 1) (fun behind => ?_)
          fun _ => not_carries_iff.mp carried) paid) rfl ⟨named, .inr ?_, timer, wait, nofun⟩
        · have whole : v.repaying = false := Bool.eq_false_iff.mpr fun mark => behind (empty mark)
          simp [Visit.lot, whole]
        · exact carries_iff.mpr ⟨v.lot clock valid, by simp, rfl⟩
  · rw [fillOne_repays owing]
    obtain ⟨named, room, timer, wait, -⟩ := admits
    exact .of_admits ⟨lots, by dsimp only [fuelBookOf]; omega, fun _ => only owing⟩ rfl
      ⟨named, room, timer, wait, fun _ => only owing⟩

/-! ### Pauses, hours and thresholds -/

theorem computeHours_sound {f : Fu} (h : f.Sound) (s : State) : (computeHours f s).1.Sound := h.of_same rfl rfl

theorem enterPaused_sound {f : Fu} {v : Visit} (book : BookSound (fuelBookOf f)) (admits : f.Admits v)
    (c : PauseCause) : (enterPaused f v c).1.Sound :=
  .of_admits (book.of_custody rfl) rfl (admits.of_custody rfl rfl id)

theorem enterFlowing_sound {f : Fu} {v : Visit} (book : BookSound (fuelBookOf f)) (admits : f.Admits v) :
    (enterFlowing f v).1.Sound :=
  .of_admits (book.of_custody rfl) rfl (admits.of_custody rfl rfl id)

theorem causeCleared_sound {f : Fu} {v : Visit} (h : f.Sound) (hv : f.visit = some v) (going : v.inProgress = true)
    (s : State) : (causeCleared f s v).1.Sound := by
  unfold causeCleared
  split
  · exact h.of_moved hv going rfl rfl rfl rfl
  · exact enterFlowing_sound h.book (h.visit v hv going)

theorem inProgress_of_flowing {v : Visit} (h : v.state = .flowing) : v.inProgress = true := by
  simp [Visit.inProgress, h]

theorem inProgress_of_paused {v : Visit} {c : PauseCause} (h : v.state = .paused c) : v.inProgress = true := by
  simp [Visit.inProgress, h]

theorem bookTest_sound {f : Fu} (h : f.Sound) (s : State) : (bookTest f s).1.Sound := by
  unfold bookTest
  split
  · exact h
  next v hv =>
    split
    next flowing =>
      split
      · exact enterPaused_sound h.book (h.visit v hv (inProgress_of_flowing flowing)) _
      · exact h
    next paused =>
      split
      · exact h
      · exact causeCleared_sound h hv (inProgress_of_paused paused) s
    all_goals exact h

theorem keyChange_sound {f : Fu} (h : f.Sound) (s : State) (on : Bool) : (keyChange f s on).1.Sound := by
  unfold keyChange
  split
  · exact h
  next v hv =>
    split
    next flowing => exact enterPaused_sound h.book (h.visit v hv (inProgress_of_flowing flowing)) _
    next paused => exact causeCleared_sound h hv (inProgress_of_paused paused) s
    next paused => exact h.of_moved hv (inProgress_of_paused paused) rfl rfl rfl rfl
    next paused => exact h.of_moved hv (inProgress_of_paused paused) rfl rfl rfl rfl
    next paused => exact h.of_moved hv (inProgress_of_paused paused) rfl rfl rfl rfl
    · exact h

theorem highChange_sound {f : Fu} (h : f.Sound) (s : State) (active : Bool) : (highChange f s active).1.Sound := by
  unfold highChange
  split
  · exact h
  next v hv =>
    split
    next flowing => exact enterPaused_sound h.book (h.visit v hv (inProgress_of_flowing flowing)) _
    next paused => exact causeCleared_sound h hv (inProgress_of_paused paused) s
    · exact h

theorem fuBurn_sound {f : Fu} (h : f.Sound) (s : State) (n : Nat) : (fuBurn f s n).1.Sound := by
  cases n with
  | zero => exact h
  | succ n => exact bookTest_sound (burnOne_sound h) s

theorem fuFill_sound {f : Fu} (h : f.Sound) (s : State) (n : Nat) : (fuFill f s n).1.Sound := by
  cases n with
  | zero => exact h
  | succ n =>
      simp only [fuFill]
      split
      next v hv =>
        split
        next going => exact computeHours_sound (bookTest_sound (fillOne_sound h hv going _ _) s) s
        · exact h.of_same rfl rfl
      · exact h.of_same rfl rfl

/-! ### Reconciliations -/

theorem shrink_bookSound {f : Fu} (h : BookSound (fuelBookOf f)) (s : State) (o : ReconOrigin) (p q : Nat) :
    BookSound (fuelBookOf (shrink f s o p q).1) := by
  obtain ⟨lots, most, only⟩ := h
  refine ⟨lots.shrink _ _, most, fun owing => ?_⟩
  show (shrinkLots f.heldPrice f.lots q).lots = []
  rw [show f.lots = [] from only owing]
  rfl

theorem gain_bookSound {f : Fu} (h : BookSound (fuelBookOf f)) (s : State) (o : ReconOrigin) (p q : Nat) :
    BookSound (fuelBookOf (gain f s o p q).1) := by
  obtain ⟨lots, most, only⟩ := (bookSound_iff f).mp h
  rcases Nat.lt_or_ge f.overdraw q with beyond | within
  · have rest : q - min f.overdraw q ≠ 0 := by omega
    refine bookSound_of_paid ?_ (show f.overdraw - min f.overdraw q = 0 by omega)
    show LotsSound (if _ then _ else _)
    rw [if_neg rest]
    exact lots.gain _ (by omega) _ _
  · have repaid : q - min f.overdraw q = 0 := by omega
    have same : (gain f s o p q).1.lots = f.lots := if_pos repaid
    refine (bookSound_iff _).mpr ⟨same ▸ lots, ?_, fun owing => same ▸ only ?_⟩
    · exact Nat.le_trans (Nat.sub_le _ _) most
    · exact Nat.lt_of_lt_of_le owing (Nat.sub_le _ _)

theorem reconcile_bookSound {f : Fu} (h : BookSound (fuelBookOf f)) (s : State) (o : ReconOrigin) (p : Nat) :
    BookSound (fuelBookOf (reconcile f s o p).1) := by
  unfold reconcile
  dsimp only
  split
  · exact h
  split
  · exact shrink_bookSound h ..
  · exact gain_bookSound h ..

/-- A reconciliation leaves the visit, the timers and the delivery as they are. -/
theorem reconcile_keeps (f : Fu) (s : State) (o : ReconOrigin) (p : Nat) :
    (reconcile f s o p).1.visit = f.visit ∧ (reconcile f s o p).1.reconTimer = f.reconTimer ∧
      (reconcile f s o p).1.waitLevel = f.waitLevel := by
  unfold reconcile
  dsimp only
  split
  · exact ⟨rfl, rfl, rfl⟩
  split <;> exact ⟨rfl, rfl, rfl⟩

theorem visiting_of_visit {f g : Fu} (h : g.visit = f.visit) : g.visiting = f.visiting := by
  unfold Fu.visiting
  rw [h]

/-- A reconciliation runs with no visit in progress. -/
theorem reconcile_sound {f : Fu} (book : BookSound (fuelBookOf f)) (idle : f.visiting = false) (s : State)
    (o : ReconOrigin) (p : Nat) : (reconcile f s o p).1.Sound := by
  obtain ⟨visit, -, -⟩ := reconcile_keeps f s o p
  exact .of_idle (reconcile_bookSound book s o p) ((visiting_of_visit visit).trans idle)

/-- While a reconciliation is due, by the timer or for want of a level, no visit is in progress (R124). -/
theorem Fu.Sound.idle {f : Fu} (h : f.Sound) (due : f.reconTimer ≠ none ∨ f.waitLevel = true) :
    f.visiting = false := by
  refine Bool.eq_false_iff.mpr fun visiting => ?_
  unfold Fu.visiting at visiting
  split at visiting
  next v hv =>
    obtain ⟨-, -, timer, wait, -⟩ := h.visit v hv visiting
    simp [timer, wait] at due
  · cases visiting

theorem reconTimerEnd_sound {f : Fu} (h : f.Sound) (s : State) : (reconTimerEnd f s).1.Sound := by
  unfold reconTimerEnd
  split
  · exact h
  next runs =>
    have idle : f.visiting = false := h.idle (.inl fun stopped => runs (by simp [stopped]))
    split
    · refine reconcile_sound ?_ ?_ s _ _
      · exact h.book
      · exact idle
    · exact .of_idle h.book idle

theorem levelWindow_sound {f : Fu} (h : f.Sound) (s : State) : (levelWindow f s).1.Sound := by
  unfold levelWindow
  split
  next waits _ =>
    refine reconcile_sound ?_ ?_ s _ _
    · exact h.book
    · exact h.idle (.inr waits)
  · exact h

theorem fuReconcile_sound {f : Fu} (h : f.Sound) (s : State) (ask : Ask) : (fuReconcile f s ask).1.Sound := by
  unfold fuReconcile
  dsimp only
  split
  · exact h
  next permitted =>
    split
    · exact h
    · obtain ⟨-, idle⟩ : s.cfg.tankFitted = true ∧ f.visiting = false := by simpa using permitted
      refine reconcile_sound ?_ ?_ s _ _
      · exact h.book
      · exact idle

/-! ### Deliveries and visits -/

theorem endVisit_sound {f : Fu} (h : f.Sound) (v : Visit) (c : EndCause) : (endVisit f v c).1.Sound :=
  .of_idle h.book rfl

theorem clearDelivery_sound {f : Fu} (h : f.Sound) (d : Delivery) (c : EndCause) : (clearDelivery f d c).1.Sound := by
  have cleared : Fu.Sound { f with delivery := none, claimRepeat := none } := h.of_same rfl rfl
  unfold clearDelivery
  dsimp only
  split
  · split
    · exact endVisit_sound cleared _ _
    · exact cleared
  · exact cleared

theorem judgeClaim_sound {f : Fu} (h : f.Sound) (s : State) (d : Delivery) : (judgeClaim f s d).1.Sound := by
  unfold judgeClaim
  split <;> exact h.of_same rfl rfl

theorem claimRepeatEnd_sound {f : Fu} (h : f.Sound) (s : State) : (claimRepeatEnd f s).1.Sound := by
  unfold claimRepeatEnd
  split
  · exact h
  split
  · split
    · exact h.of_same rfl rfl
    · exact judgeClaim_sound h _ _
  · exact h.of_same rfl rfl

theorem deliveryOpen_sound {f : Fu} (h : f.Sound) (s : State) (sender number price truck : Nat) :
    (deliveryOpen f s sender number price truck).1.Sound := by
  unfold deliveryOpen
  dsimp only
  split
  · exact h
  split
  next d _ =>
    split
    · exact h.of_same rfl rfl
    · refine judgeClaim_sound ?_ _ _
      exact (clearDelivery_sound h d .recordReplaced).of_same rfl rfl
  · refine judgeClaim_sound ?_ _ _
    exact h.of_same rfl rfl

theorem deliveryClose_sound {f : Fu} (h : f.Sound) (s : State) (sender number : Nat) :
    (deliveryClose f s sender number).1.Sound := by
  unfold deliveryClose
  split
  · exact h
  split
  · split
    · exact clearDelivery_sound h _ _
    · exact h
  · exact h

theorem recordExpiry_sound {f : Fu} (h : f.Sound) : (recordExpiry f).1.Sound := by
  unfold recordExpiry
  split
  · exact clearDelivery_sound h _ _
  · exact h

/-- A visit judged acceptable finds room in the queue (Table 7-3). -/
theorem room_of_judgeVisit {f : Fu} {s : State} {number : Nat} (h : (judgeVisit f s number).2 = true) :
    f.lots.length < 8 ∨ f.carries number = true := by
  unfold judgeVisit at h
  split at h
  · cases h
  split at h
  · split at h <;> cases h
  split at h
  · cases h
  split at h
  · cases h
  next room =>
    simp only [not_and_or, Bool.not_eq_true', Bool.not_eq_false] at room
    exact room.imp_left Nat.lt_of_not_le

theorem acceptVisit_sound {f : Fu} (h : f.Sound) (s : State) {number : Nat} (named : number ≠ 0)
    (room : f.lots.length < 8 ∨ f.carries number = true) (sender : Nat) (d : Delivery) :
    (acceptVisit f s sender number d).1.Sound := by
  unfold acceptVisit
  dsimp only
  split
  · refine enterPaused_sound ?_ ?_ _
    · exact h.book
    · exact ⟨named, room, rfl, rfl, nofun⟩
  · refine enterFlowing_sound ?_ ?_
    · exact h.book
    · exact ⟨named, room, rfl, rfl, nofun⟩

theorem visitFrame_sound {f : Fu} (h : f.Sound) (s : State) (sender number : Nat) :
    (visitFrame f s sender number).1.Sound := by
  unfold visitFrame
  split
  · exact h
  next terminal =>
    dsimp only
    split
    next judged _ =>
      have named : number ≠ 0 := by
        simp only [deliverySender, Bool.not_eq_true', Bool.not_eq_false, Bool.and_eq_true,
          decide_eq_true_eq] at terminal
        exact terminal.2
      exact acceptVisit_sound h s named (room_of_judgeVisit judged) _ _
    · exact h

theorem visitEndFrame_sound {f : Fu} (h : f.Sound) (sender number : Nat) : (visitEndFrame f sender number).1.Sound := by
  unfold visitEndFrame
  split
  · exact h
  split
  · split
    · exact endVisit_sound h _ _
    · exact h
  · exact h

theorem flowStallEnd_sound {f : Fu} (h : f.Sound) : (flowStallEnd f).1.Sound := by
  unfold flowStallEnd
  split
  next v _ hv _ =>
    split
    next flowing => exact enterPaused_sound h.book (h.visit v hv (inProgress_of_flowing flowing)) _
    · exact h
  · exact h

theorem pauseTimerEnd_sound {f : Fu} (h : f.Sound) : (pauseTimerEnd f).1.Sound := by
  unfold pauseTimerEnd
  split
  · split
    · exact endVisit_sound h _ _
    · exact h
  · exact h

theorem fuHandle_sound (m : FuMsg) (s : State) (h : s.fu.Sound) : (fuHandle m s).1.Sound := by
  cases m with
  | bfTotal t => exact h.of_same rfl rfl
  | ffTotal t => exact h.of_same rfl rfl
  | burn n => exact fuBurn_sound h s n
  | fill n => exact fuFill_sound h s n
  | bfWindow => exact computeHours_sound h s
  | lpWindow => exact levelWindow_sound h s
  | fillKey b => exact keyChange_sound h s b
  | highLevel b => exact highChange_sound h s b
  | open' sender number price truck => exact deliveryOpen_sound h s sender number price truck
  | close sender number => exact deliveryClose_sound h s sender number
  | visit sender number => exact visitFrame_sound h s sender number
  | visitEnd sender number => exact visitEndFrame_sound h sender number
  | recordExpiry => exact recordExpiry_sound h
  | claimRepeat => exact claimRepeatEnd_sound h s
  | flowStall => exact flowStallEnd_sound h
  | pauseTimer => exact pauseTimerEnd_sound h
  | reconTimer => exact reconTimerEnd_sound h s
  | endOfStart => exact h
  | reconcile ask => exact fuReconcile_sound h s ask
  | tankQuery ask => exact h

end Sys2Proof.Machine
end

section
/-! SUPPORT. The books through every step: what the store keeps of a record, and what a start makes of it (O57). -/

namespace Sys2Proof.Machine

/-! ### A record of the store (R180, R181) -/

section
variable {α : Type} {r : Rec α} {p : α → Prop} {now : α}

theorem Rec.Holds.touch (h : r.Holds p) (hn : p now) : (r.touch now).Holds p := by
  obtain ⟨stored, writing⟩ := h
  unfold Rec.touch
  split
  · exact ⟨stored, fun a ha => Option.some.inj ha ▸ hn⟩
  · exact ⟨stored, writing⟩

theorem Rec.Holds.written (h : r.Holds p) (hn : p now) : (r.written now).Holds p := by
  unfold Rec.written
  split
  · exact h
  next c running =>
    obtain ⟨-, writing⟩ := h
    refine ⟨fun a ha => Stored.good.inj ha ▸ writing c running, fun a ha => ?_⟩
    dsimp only at ha
    split at ha
    · exact Option.some.inj ha ▸ hn
    · cases ha

theorem Rec.Holds.finish (h : r.Holds p) (hn : p now) : (r.finish now).Holds p := by
  unfold Rec.finish
  split
  · exact h
  next c running =>
    obtain ⟨-, writing⟩ := h
    refine ⟨fun a ha => Stored.good.inj ha ▸ ?_, nofun⟩
    split
    · exact hn
    · exact writing c running

theorem Rec.Holds.cut (h : r.Holds p) : r.cut.Holds p := by
  unfold Rec.cut
  split
  · exact h
  · exact ⟨nofun, nofun⟩

theorem Rec.Holds.read (h : r.Holds p) {empty : α} (he : p empty) : p (r.read empty) := by
  obtain ⟨stored, -⟩ := h
  unfold Rec.read
  split
  next a good => exact stored a good
  all_goals exact he

end

/-! ### Invariants of the fuel, the accounts and the store -/

/-- A property of the fuel, the accounts and the store that every report keeps, and every part of a start: the state
made fresh, power lost, the writes that run completed, the books brought up from the store. -/
structure BooksInvariant (Inv : State → Prop) : Prop where
  told : ∀ r s, Inv s → Inv (deliver r s).1
  fresh : ∀ (s : State) p, Inv s → Inv (s.fresh p)
  cut : ∀ s, Inv s → Inv (losePower s)
  finished : ∀ s, Inv s → Inv { s with store := s.store.finish s }
  broughtUp : ∀ s, Inv s →
    Inv { s with fu := fuBringUp s, bu := (buBringUp { s with fu := fuBringUp s }).1 }
  same : ∀ s t : State, t.fu = s.fu → t.bu = s.bu → t.store = s.store → Inv s → Inv t

namespace BooksInvariant

variable {Inv : State → Prop}

theorem of_take (hI : BooksInvariant Inv) {s : State} (h : Inv s) (rs : List Report) : Inv (s.take rs) :=
  settle_invariant Inv hI.told _ rs s h

theorem of_startStep (hI : BooksInvariant Inv) (n : Nat) (inp : StartInputs) {s : State} (h : Inv s) :
    Inv (startStep n inp s) := by
  unfold startStep
  split
  · exact hI.fresh s _ h
  · unfold stepConfig
    split <;> exact hI.same s _ rfl rfl rfl h
  · exact hI.same s _ rfl rfl rfl h
  · exact hI.same s _ rfl rfl rfl h
  · exact hI.same s _ rfl rfl rfl h
  · exact hI.of_take (by exact hI.same s _ rfl rfl rfl h) _
  · exact hI.of_take (by exact hI.broughtUp s h) _
  · exact hI.of_take (by exact hI.same s _ rfl rfl rfl h) _
  · exact hI.of_take (by exact hI.same s _ rfl rfl rfl h) _
  · exact h

theorem of_runStep (hI : BooksInvariant Inv) (inp : StartInputs) {s : State} (h : Inv s) (n : Nat) :
    Inv (runStep inp s n) := by
  have stepped := hI.of_startStep n inp h
  unfold runStep
  split
  · exact h
  dsimp only
  split
  · exact stepped
  · exact hI.of_take (by exact hI.same (startStep n inp s) _ rfl rfl rfl stepped) _

/-- A start keeps it, at whatever step it ends. -/
theorem of_startPart (hI : BooksInvariant Inv) (inp : StartInputs) {s : State} (h : Inv s) : Inv (startPart inp s) := by
  have steps : ∀ (l : List Nat) (t : State), Inv t → Inv (l.foldl (runStep inp) t) := by
    intro l
    induction l with
    | nil => exact fun t h => h
    | cons n l ih => exact fun t h => ih _ (hI.of_runStep inp h n)
  have through := steps stepNumbers _ (hI.fresh s (.starting 0) h)
  unfold startPart
  dsimp only
  split
  · exact hI.of_take (by exact hI.same (stepNumbers.foldl (runStep inp) _) _ rfl rfl rfl through) _
  · exact through

theorem of_restartPart (hI : BooksInvariant Inv) (inp : StartInputs) {s : State} (h : Inv s) :
    Inv (restartPart inp s) := hI.of_startPart inp (hI.finished s h)

theorem of_exec (hI : BooksInvariant Inv) {c : Instr} {s t : State} (ht : exec c s = .next t) (h : Inv s) : Inv t := by
  cases hc : c.startsOrStops with
  | false =>
      obtain ⟨r, -, rfl⟩ := exec_runs hc ht
      exact run_invariant Inv hI.told _ _ h
  | true =>
      cases c with
      | powerOn inp =>
          cases ht
          refine hI.of_startPart inp ?_
          split
          · exact h
          · exact hI.cut s h
      | resetInput inp =>
          cases ht
          split
          · exact h
          · exact hI.of_restartPart inp h
      | powerFail => cases ht; exact hI.cut s h
      | restartHandover inp =>
          cases ht
          split
          · exact hI.of_restartPart inp h
          · exact h
      | _ => cases hc

/-- Every step keeps it. -/
theorem of_step (hI : BooksInvariant Inv) {s t : State} (ht : step s = .next t) (h : Inv s) : Inv t := by
  unfold step at ht
  split at ht
  · cases ht; exact h
  · exact hI.of_exec ht (hI.same s _ rfl rfl rfl h)

end BooksInvariant

/-! ### The fuel book through every step -/

theorem bookSound_empty : BookSound ⟨[], 0, 0⟩ := ⟨lotsSound_nil, Nat.zero_le _, fun _ => rfl⟩

theorem start_fuSound : Fu.start.Sound := .of_idle bookSound_empty rfl

theorem fuBringUp_sound {s : State} (h : s.store.fuelBook.Holds BookSound) : (fuBringUp s).Sound := by
  unfold fuBringUp
  split
  · exact .of_idle (h.read bookSound_empty) rfl
  · exact start_fuSound

/-- Of the reports that reach the SR only those of the fuel book's record move it. -/
theorem srHandle_fuelBook (m : SrMsg) (s : State) (h : s.store.fuelBook.Holds BookSound)
    (book : BookSound (fuelBookOf s.fu)) : (srHandle m s).1.fuelBook.Holds BookSound := by
  cases m with
  | touch r =>
      cases r with
      | fuelBook => exact h.touch book
      | _ => exact h
  | written r =>
      cases r with
      | fuelBook => exact h.written book
      | _ => exact h

theorem deliver_fuelSound (r : Report) (s : State) (h : FuelSound s) : FuelSound (deliver r s).1 := by
  obtain ⟨fuel, store⟩ := (fuelSound_iff s).mp h
  cases r with
  | fu m => exact (fuelSound_iff _).mpr ⟨fuHandle_sound m s fuel, store⟩
  | sr m => exact (fuelSound_iff _).mpr ⟨fuel, srHandle_fuelBook m s store fuel.book⟩
  | _ => exact h

theorem fuelSound_invariant : BooksInvariant FuelSound where
  told := deliver_fuelSound
  fresh s p h := by
    obtain ⟨-, store⟩ := (fuelSound_iff s).mp h
    exact (fuelSound_iff _).mpr ⟨start_fuSound, store⟩
  cut s h := by
    obtain ⟨-, store⟩ := (fuelSound_iff s).mp h
    exact (fuelSound_iff _).mpr ⟨start_fuSound, store.cut⟩
  finished s h := by
    obtain ⟨fuel, store⟩ := (fuelSound_iff s).mp h
    exact (fuelSound_iff _).mpr ⟨fuel, store.finish fuel.book⟩
  broughtUp s h := by
    obtain ⟨-, store⟩ := (fuelSound_iff s).mp h
    exact (fuelSound_iff _).mpr ⟨fuBringUp_sound store, store⟩
  same s t fuel _ store h := by
    rw [fuelSound_iff, fuel, store]
    exact (fuelSound_iff s).mp h

/-- Settles O57: the book, its record and the visit are kept sound by every report, and a start brings up what the store
holds. -/
theorem stepsKeepTheFuelBookSound : Obligations.StepsKeepTheFuelBookSound := fun _ _ h =>
  fuelSound_invariant.of_step h

end Sys2Proof.Machine
end

section
/-! SUPPORT. What stands between two starts, and the thresholds LOW and CRITICAL (O4, O10). -/

namespace Sys2Proof.Machine

/-! ### Between two starts (O4) -/

@[simp] theorem run_cfg (rs : List Report) (s : State) : (s.run rs).cfg = s.cfg := by
  unfold State.run
  split <;> simp

@[simp] theorem run_phase (rs : List Report) (s : State) : (s.run rs).phase = s.phase := by
  unfold State.run
  split <;> simp

@[simp] theorem run_configClamped (rs : List Report) (s : State) : (s.run rs).configClamped = s.configClamped := by
  unfold State.run
  split <;> simp

@[simp] theorem run_retainedDamaged (rs : List Report) (s : State) :
    (s.run rs).retainedDamaged = s.retainedDamaged := by
  unfold State.run
  split <;> simp

/-- Settles O4: a command between two starts is a report worked off, and no unit changes these four. -/
theorem configurationStandsBetweenStarts : Obligations.ConfigurationStandsBetweenStarts := by
  intro c s t hc ht
  obtain ⟨r, -, rfl⟩ := exec_runs hc ht
  exact ⟨run_cfg _ s, run_configClamped _ s, run_retainedDamaged _ s, run_phase _ s⟩

/-! ### LOW and CRITICAL (O10) -/

theorem loadConfig_low (p : List Byte) :
    (loadConfig p).1.low = (loadThresholds (fieldAt p 71 1) (fieldAt p 72 1)).1.1 := rfl

theorem loadConfig_critical (p : List Byte) :
    (loadConfig p).1.critical = (loadThresholds (fieldAt p 71 1) (fieldAt p 72 1)).1.2 := rfl

theorem loadConfig_thresholdsClamped {p : List Byte}
    (h : (loadThresholds (fieldAt p 71 1) (fieldAt p 72 1)).2 = true) : (loadConfig p).2 = true := by
  simp [loadConfig, h]

theorem loadThresholds_low (low critical : Nat) : (loadThresholds low critical).1.1 = clampTo 20 240 low := rfl

theorem loadThresholds_critical (low critical : Nat) :
    (loadThresholds low critical).1.2 = min (clampTo 5 60 critical) (clampTo 20 240 low - 5) := rfl

/-- A threshold that is not taken as it stands sets the mark. -/
theorem loadThresholds_marks {low critical : Nat}
    (h : (loadThresholds low critical).1.1 ≠ low ∨ (loadThresholds low critical).1.2 ≠ critical) :
    (loadThresholds low critical).2 = true := by
  simp only [loadThresholds, ranged, Bool.or_eq_true, bne_iff_ne] at h ⊢
  omega

/-- Settles O10: the two fields as `loadThresholds` gives them, and O4's rule for the time between two starts. -/
theorem thresholdsAreClamped : Obligations.ThresholdsAreClamped := by
  refine ⟨fun p => ⟨(loadConfig_low p).trans (loadThresholds_low _ _), ?_, fun changed => ?_⟩, fun c s t hc ht => ?_⟩
  · rw [loadConfig_critical, loadThresholds_critical, min_comm, min_def_lt]
    rfl
  · exact loadConfig_thresholdsClamped (loadThresholds_marks changed)
  · obtain ⟨cfg, -, -, -⟩ := configurationStandsBetweenStarts c s t hc ht
    exact ⟨congrArg Cfg.low cfg, congrArg Cfg.critical cfg⟩

end Sys2Proof.Machine
end
section
/-! SUPPORT. The four queries (O23). -/

namespace Sys2Proof.Machine

/-! ### A tool command that is answered at once -/

/-- A permitted tool command its owner answers at once, changing nothing. -/
theorem run_answered {s : State} {h : Header} {k : SubKind} {params : List Byte} {tag : Byte} (hc : Commands s h)
    (hk : k ≠ .restart) (hp : params.length = k.paramLength) (hl : (k.altering && s.fli.inputs.lock) = false)
    {r : Report} {result : Result} {data : List Byte} (owner : k.report (askOf h k tag) params = [r])
    (told : deliver r s.heard = (s.heard, [.lc (.answer (askOf h k tag) result data)])) :
    s.run [toolOf k h tag params] = s.heard.answered (askOf h k tag) result data := by
  rw [run_toolOf tag hc hk hp hl, owner, handOn_cons _ _ _ (by decide), told, List.append_nil,
    handOn_answer _ _ _ _ (by decide)]

/-! ### Queries on a tenant code (R158, R159) -/

theorem codeQuery_range (b : Bu) (ask : Ask) {c : Nat} (data : Slot → List Byte) (h : c < 1 ∨ 4095 < c) :
    codeQuery b ask c data = [.lc (.answer ask .range [])] := by
  have outside : codeInRange c = false := by
    rw [← Bool.not_eq_true, codeInRange_iff]
    omega
  simp only [codeQuery, outside, Bool.not_false, if_true]

theorem codeQuery_state {b : Bu} (ask : Ask) {c : Nat} (data : Slot → List Byte) (h : codeInRange c = true)
    (unheld : b.slots.find? (·.tenant == c) = none) : codeQuery b ask c data = [.lc (.answer ask .state [])] := by
  simp only [codeQuery, h, unheld, Bool.not_true, Bool.false_eq_true, if_false]

theorem codeQuery_done {b : Bu} (ask : Ask) {c : Nat} (data : Slot → List Byte) (h : codeInRange c = true) {x : Slot}
    (found : b.slots.find? (·.tenant == c) = some x) :
    codeQuery b ask c data = [.lc (.answer ask .done (data x))] := by
  simp only [codeQuery, h, found, Bool.not_true, Bool.false_eq_true, if_false]

section
variable {h : Header} {params : List Byte} {s : State} {r : Result} {data : List Byte}

theorem exec_accountQuery (tag : Byte) (hc : Commands s h) (hp : params.length = 2)
    (told : codeQuery s.bu (askOf h .accountQuery tag) (beNat params) (accountData s.bu) =
      [.lc (.answer (askOf h .accountQuery tag) r data)]) :
    exec (.accountQuery h tag params) s = .next (s.heard.answered (askOf h .accountQuery tag) r data) :=
  congrArg Host.Outcome.next (run_answered (k := .accountQuery) hc (by decide) hp rfl rfl (congrArg (Prod.mk _) told))

theorem exec_statementQuery (tag : Byte) (hc : Commands s h) (hp : params.length = 2)
    (told : codeQuery s.bu (askOf h .statementQuery tag) (beNat params) (fun x => x.statements.flatMap statementBytes) =
      [.lc (.answer (askOf h .statementQuery tag) r data)]) :
    exec (.statementQuery h tag params) s = .next (s.heard.answered (askOf h .statementQuery tag) r data) :=
  congrArg Host.Outcome.next (run_answered (k := .statementQuery) hc (by decide) hp rfl rfl (congrArg (Prod.mk _) told))

end

/-! ### TANK QUERY and JOURNAL QUERY (R126, R160) -/

theorem exec_journalQuery {h : Header} {params : List Byte} {s : State} (tag : Byte) (hc : Commands s h)
    (hp : params.length = 4) : exec (.journalQuery h tag params) s =
      .next (s.heard.answered (askOf h .journalQuery tag) .done (journalData s.bu (beNat params))) :=
  congrArg Host.Outcome.next (run_answered (k := .journalQuery) hc (by decide) hp rfl rfl rfl)

/-- The end of a frame changes nothing a TANK QUERY is answered from. -/
theorem tankData_heard (s : State) : tankData s.fu s.heard = tankData s.fu s := rfl

theorem exec_tankQuery {h : Header} {params : List Byte} {s : State} (tag : Byte) (hc : Commands s h)
    (hp : params.length = 0) : exec (.tankQuery h tag params) s = .next (if s.cfg.tankFitted
      then s.heard.answered (askOf h .tankQuery tag) .done (tankData s.fu s)
      else s.heard.answered (askOf h .tankQuery tag) .state []) := by
  have answer : deliver (.fu (.tankQuery (askOf h .tankQuery tag))) s.heard =
      (s.heard, [if s.cfg.tankFitted then .lc (.answer (askOf h .tankQuery tag) .done (tankData s.fu s))
        else .lc (.answer (askOf h .tankQuery tag) .state [])]) := by
    rw [← tankData_heard]
    rfl
  refine congrArg Host.Outcome.next ?_
  split
  next fitted =>
    rw [if_pos fitted] at answer
    exact run_answered (k := .tankQuery) hc (by decide) hp rfl rfl answer
  next bare =>
    rw [if_neg bare] at answer
    exact run_answered (k := .tankQuery) hc (by decide) hp rfl rfl answer

/-! ### The journal entries (R160) -/

theorem journalFrom_eq_nil {l : List JournalEntry} {n : Nat} (h : ∀ e ∈ l, e.number < n) : journalFrom l n = [] := by
  have before : l.dropWhile (fun e => decide (e.number < n)) = [] :=
    List.dropWhile_eq_nil_iff.mpr fun e he => decide_eq_true (h e he)
  rw [journalFrom, before, List.take_nil]

/-- The entries begin with the first one whose number is not below the one asked for. -/
theorem journalFrom_append {older : List JournalEntry} {e : JournalEntry} {n : Nat} (before : ∀ x ∈ older, x.number < n)
    (reached : n ≤ e.number) (newer : List JournalEntry) :
    journalFrom (older ++ e :: newer) n = e :: newer.take 3 := by
  have skipped : (older ++ e :: newer).dropWhile (fun x => decide (x.number < n)) = e :: newer := by
    rw [List.dropWhile_append_of_pos fun x hx => decide_eq_true (before x hx), List.dropWhile_cons_of_neg]
    simpa using reached
  rw [journalFrom, skipped, List.take_succ_cons]

/-- Settles O23: each query by what its owner answers, and the entries of the journal by where the numbers reach. -/
theorem queriesAreAnswered : Obligations.QueriesAreAnswered := by
  refine ⟨fun h tag params s hc => ⟨exec_tankQuery tag hc, exec_journalQuery tag hc, fun len outside => ?range,
    fun len low high unheld => ?state, fun x len low high found => ?done⟩, fun _ _ => journalFrom_eq_nil,
    fun _ _ newer _ before reached => journalFrom_append before reached newer⟩
  case range =>
    exact ⟨exec_accountQuery tag hc len (codeQuery_range _ _ _ outside),
      exec_statementQuery tag hc len (codeQuery_range _ _ _ outside)⟩
  case state =>
    have inside := (codeInRange_iff _).mpr ⟨low, high⟩
    exact ⟨exec_accountQuery tag hc len (codeQuery_state _ _ inside unheld),
      exec_statementQuery tag hc len (codeQuery_state _ _ inside unheld)⟩
  case done =>
    have inside := (codeInRange_iff _).mpr ⟨low, high⟩
    exact ⟨exec_accountQuery tag hc len (codeQuery_done _ _ inside found),
      exec_statementQuery tag hc len (codeQuery_done _ _ inside found)⟩

end Sys2Proof.Machine
end

section
/-! SUPPORT. Hours-to-dry and the threshold state (O47). -/

namespace Sys2Proof.Machine

/-! ### Hours-to-dry (R116) -/

theorem hoursOf_dry {book : Int} (h : book ≤ 0) (rate : Nat) : hoursOf book rate = 0 := if_pos h

theorem hoursOf_unburned {book : Int} (h : 0 < book) : hoursOf book 0 = 9999 := by
  rw [hoursOf, if_neg (Int.not_le.mpr h), if_pos rfl]

theorem hoursOf_burned {book : Int} (h : 0 < book) {rate : Nat} (burns : 0 < rate) :
    hoursOf book rate = min 9999 (book.toNat * 10 / rate) := by
  rw [hoursOf, if_neg (Int.not_le.mpr h), if_neg (Nat.ne_of_gt burns), clampTo_zero]

/-! ### Table 6-3 -/

section
variable {low critical h : Nat} {st : Threshold}

theorem nextThreshold_critical (reached : h ≤ critical) : nextThreshold low critical st h = .critical := if_pos reached

theorem nextThreshold_normal (above : critical < h) (clear : low + 10 ≤ h) :
    nextThreshold low critical st h = .normal := by
  simp only [nextThreshold, Nat.not_le.mpr above, clear, if_false, if_true]

/-! Between CRITICAL and LOW + 10 the present state decides. -/

theorem nextThreshold_of_normal (above : critical < h) (below : h < low + 10) :
    nextThreshold low critical .normal h = if h ≤ low then .low else .normal := by
  simp only [nextThreshold, Nat.not_le.mpr above, Nat.not_le.mpr below, if_false]

theorem nextThreshold_of_low (above : critical < h) (below : h < low + 10) :
    nextThreshold low critical .low h = .low := by
  simp only [nextThreshold, Nat.not_le.mpr above, Nat.not_le.mpr below, if_false]

theorem nextThreshold_of_critical (above : critical < h) (below : h < low + 10) :
    nextThreshold low critical .critical h = if h < critical + 10 then .critical else .low := by
  simp only [nextThreshold, Nat.not_le.mpr above, Nat.not_le.mpr below, if_false, ← Nat.not_lt, ite_not]

theorem nextThreshold_falls (above : critical < h) (below : h ≤ low) (notYet : st ≠ .critical) :
    nextThreshold low critical st h = .low := by
  cases st with
  | normal => rw [nextThreshold_of_normal above (by omega), if_pos below]
  | low => exact nextThreshold_of_low above (by omega)
  | critical => exact absurd rfl notYet

theorem nextThreshold_stays (above : critical < h) (clear : low < h) (below : h < low + 10) (notYet : st ≠ .critical) :
    nextThreshold low critical st h = st := by
  cases st with
  | normal => rw [nextThreshold_of_normal above below, if_neg (Nat.not_le.mpr clear)]
  | low => exact nextThreshold_of_low above below
  | critical => exact absurd rfl notYet

end

/-! ### The reports of the threshold state (R119) -/

@[simp] theorem thresholdReports_same (a : Threshold) : thresholdReports a a = [] := if_pos rfl

theorem thresholdReports_changed {a b : Threshold} (h : a ≠ b) :
    thresholdReports a b = [.cc (.threshold a b), .du .test, .pt .reportable] := if_neg h

theorem deliver_endOfStart (s : State) :
    deliver (.fu .endOfStart) s = (s, thresholdReports .normal s.fu.threshold) := rfl

theorem fuBringUp_hours {s : State} (h : s.cfg.tankFitted = true) :
    (fuBringUp s).hours = hoursOf (fuBringUp s).book s.cfg.standby ∧
      (fuBringUp s).threshold = nextThreshold s.cfg.low s.cfg.critical .normal (fuBringUp s).hours := by
  rw [fuBringUp, if_pos h]
  exact ⟨rfl, rfl⟩

/-- Settles O47: the hours by the book and the rate, the threshold by where the hours stand in Table 6-3, and the
reports by whether it changes. -/
theorem hoursAndThresholds : Obligations.HoursAndThresholds := by
  refine ⟨fun f s => ⟨fun dry => hoursOf_dry dry _, fun book still => ?_, fun book burns => hoursOf_burned book burns,
    rfl, fun same => ?_, fun changed => thresholdReports_changed changed⟩,
    fun low critical h st apart => ⟨nextThreshold_critical, fun above below => nextThreshold_falls above below,
      fun above below held => held ▸ nextThreshold_of_critical above below,
      fun clear below => nextThreshold_stays (by omega) clear below,
      fun clear => nextThreshold_normal (by omega) clear⟩,
    fun s => fuBringUp_hours, fun s => ⟨fun normal => ?_, fun changed => ?_⟩⟩
  · rw [burnRate, still, hoursOf_unburned book]
  · exact if_pos same
  · rw [deliver_endOfStart, normal, thresholdReports_same]
  · rw [deliver_endOfStart, thresholdReports_changed changed.symm]

end Sys2Proof.Machine
end
section
/-! SUPPORT. Burned and filled decilitres (O48). -/

namespace Sys2Proof.Machine

/-- What the FU makes of a report. -/
theorem deliver_fu_of {s : State} {m : FuMsg} {f : Fu} {rs : List Report} (h : fuHandle m s = (f, rs)) :
    deliver (.fu m) s = ({ s with fu := f }, rs) := by
  rw [deliver_fu, h]

/-! ### The book moves by one -/

theorem burnOne_book {f : Fu} (sound : LotsSound f.lots) (fuel : f.lots ≠ [] ∨ f.overdraw < maxOverdraw) :
    (burnOne f).1.book = f.book - 1 := by
  rcases queue : f.lots with _ | ⟨l, rest⟩
  · rw [burnOne_overdraws queue (fuel.resolve_left (fun lots => lots queue))]
    simp only [book_eq]
    omega
  · obtain ⟨-, full, -, -⟩ := sound
    have holds : 1 ≤ l.remaining := full l (by simp [queue])
    rcases Nat.lt_or_ge 1 l.remaining with more | last
    · rw [burnOne_draws queue more]
      simp only [book_eq, queue, contents_cons]
      omega
    · rw [burnOne_empties queue last]
      simp only [book_eq, queue, contents_cons]
      omega

/-- A number is that of one lot at most, so a decilitre filled into its lot is one decilitre more. -/
theorem contents_fillLot {lots : List Lot} {n : Nat} (sound : LotsSound lots) (named : n ≠ 0)
    (carried : ∃ l ∈ lots, l.number = n) : contents (lots.map (fillLot n)) = contents lots + 1 := by
  induction lots with
  | nil => simp at carried
  | cons l rest ih =>
      by_cases hit : l.number = n
      · have same : rest.map (fillLot n) = rest := by
          refine (List.map_congr_left fun m hm => fillLot_other fun again => ?_).trans (List.map_id rest)
          obtain ⟨-, -, -, once⟩ := sound
          simp only [List.map_cons, hit, ne_eq, named, not_false_eq_true, bne_iff_ne, List.filter_cons_of_pos,
            List.nodup_cons, List.mem_filter, List.mem_map, and_true] at once
          obtain ⟨unique, -⟩ := once
          exact unique ⟨m, hm, again⟩
        simp only [List.map_cons, contents_cons, same, fillLot_same hit, Lot.raised]
        omega
      · have behind : ∃ m ∈ rest, m.number = n := by simpa [hit] using carried
        simp only [List.map_cons, contents_cons, fillLot_other hit, ih sound.tail behind]
        omega

theorem fillOne_book {f : Fu} {v : Visit} (sound : LotsSound f.lots) (named : v.number ≠ 0) (clock : Nat)
    (valid : Bool) : (fillOne f clock valid v).book = f.book + 1 := by
  rcases Nat.eq_zero_or_pos f.overdraw with paid | owing
  · cases carried : f.carries v.number with
    | true =>
        rw [fillOne_raises paid carried]
        simp only [book_eq, contents_fillLot sound named (carries_iff.mp carried)]
        omega
    | false =>
        rw [fillOne_opens paid carried]
        simp only [book_eq, contents_append, contents_cons, contents_nil, Visit.lot]
        omega
  · rw [fillOne_repays owing]
    simp only [book_eq]
    omega

/-! ### What the lot of a number has been delivered -/

theorem lotDelivered_eq {f : Fu} {n : Nat} :
    f.lotDelivered n = ((f.lots.find? (·.number == n)).map (·.delivered)).getD 0 := by
  unfold Fu.lotDelivered
  split
  next found => rw [found]; rfl
  next absent => rw [absent]; rfl

theorem find_fillLot (lots : List Lot) (n : Nat) :
    (lots.map (fillLot n)).find? (·.number == n) = (lots.find? (·.number == n)).map (·.raised 1) := by
  have kept : ((fun l : Lot => l.number == n) ∘ fillLot n) = fun l => l.number == n := by
    funext l
    simp
  rw [List.find?_map, kept]
  cases found : lots.find? (·.number == n) with
  | none => rfl
  | some l =>
      have hit : l.number = n := by simpa using List.find?_some found
      simp only [Option.map_some, fillLot_same hit]

theorem lotDelivered_raised {f : Fu} {n : Nat} (carried : f.carries n = true) {g : Fu}
    (lots : g.lots = f.lots.map (fillLot n)) : g.lotDelivered n = f.lotDelivered n + 1 := by
  obtain ⟨l, found⟩ : ∃ l, f.lots.find? (·.number == n) = some l := by
    rw [← Option.isSome_iff_exists, List.find?_isSome]
    simpa using carries_iff.mp carried
  simp only [lotDelivered_eq, lots, find_fillLot, found, Option.map_some, Option.getD_some, Lot.raised]

theorem lotDelivered_opened {f g : Fu} {l : Lot} (new : f.carries l.number = false) (lots : g.lots = f.lots ++ [l]) :
    g.lotDelivered l.number = l.delivered := by
  have absent : f.lots.find? (·.number == l.number) = none :=
    List.find?_eq_none.mpr fun m hm => by simpa using not_carries_iff.mp new m hm
  simp only [lotDelivered_eq, lots, List.find?_append, absent, List.find?_cons_of_pos, beq_self_eq_true, Option.none_or,
    Option.map_some, Option.getD_some]

theorem fillOne_lotDelivered {f : Fu} {v : Visit} (paid : f.overdraw = 0) (clock : Nat) (valid : Bool) :
    (fillOne f clock valid v).lotDelivered v.number =
      if f.carries v.number then f.lotDelivered v.number + 1 else if v.repaying then v.repaidDl + 1 else 1 := by
  cases carried : f.carries v.number with
  | true => exact lotDelivered_raised carried (by rw [fillOne_raises paid carried])
  | false => exact lotDelivered_opened (l := v.lot clock valid) carried (by rw [fillOne_opens paid carried])

/-- Without a visit in progress a fill is unbooked (R114). -/
theorem deliver_fill_unbooked {s : State} {n : Nat} (idle : s.fu.visiting = false) (units : 0 < n) :
    deliver (.fu (.fill n)) s =
      ({ s with fu := { s.fu with unbooked := min 4294967295 (s.fu.unbooked + n) } }, []) := by
  obtain ⟨k, rfl⟩ : ∃ k, n = k + 1 := ⟨n - 1, by omega⟩
  have refused : fuFill s.fu s (k + 1) = quiet { s.fu with unbooked := satAdd max32 s.fu.unbooked (k + 1) } := by
    unfold Fu.visiting at idle
    simp only [fuFill]
    split at idle
    next v hv => simp only [hv, idle, Bool.false_eq_true, if_false]
    next hv => simp only [hv]
  rw [satAdd_eq_min] at refused
  exact deliver_fu_of refused

/-- Settles O48: a burn by the lot it finds, a fill by the overdraw and the lot of its number, each with the equation of
its case. -/
theorem burnsAndFills : Obligations.BurnsAndFills := by
  refine ⟨fun f => ⟨fun l rest => burnOne_draws, fun l rest queue last => burnOne_empties queue (Nat.le_of_eq last),
    burnOne_overdraws, fun queue most => burnOne_dry queue (Nat.le_of_eq most.symm), burnOne_book⟩,
    fun f clock valid v sound named => ⟨fillOne_book sound named clock valid, fun owing => ?repays,
      fun paid => ⟨?visit, fillOne_lotDelivered paid clock valid⟩, fun paid carried => ?raises,
      fun paid new => ?opens⟩,
    fun s n => deliver_fill_unbooked⟩
  case repays =>
    rw [fillOne_repays owing]
    exact ⟨rfl, rfl, rfl⟩
  case visit =>
    cases carried : f.carries v.number with
    | true => rw [fillOne_raises paid carried]
    | false => rw [fillOne_opens paid carried]
  case raises => rw [fillOne_raises paid carried, List.length_map]
  case opens =>
    rw [fillOne_opens paid new]
    exact ⟨_, rfl, rfl, rfl, rfl⟩

end Sys2Proof.Machine
end

section
/-! SUPPORT. Reconciliations (O49). -/

namespace Sys2Proof.Machine

/-! ### A reconciliation by its difference (R121 to R123) -/

section
variable {f : Fu} {s : State} {p : Nat}

theorem reconcile_within (o : ReconOrigin) (within : ((p : Int) - f.book).natAbs ≤ s.cfg.tolerance) :
    reconcile f s o p = ({ f with recon := reconRecord f s o p .none 0 0 0 }, [.sr (.touch .shrink)]) :=
  if_pos within

theorem reconcile_loss (o : ReconOrigin) (beyond : s.cfg.tolerance < ((p : Int) - f.book).natAbs)
    (loss : (p : Int) - f.book < 0) : reconcile f s o p = shrink f s o p ((p : Int) - f.book).natAbs := by
  simp only [reconcile, Nat.not_le.mpr beyond, loss, if_true, if_false]

theorem reconcile_surplus (o : ReconOrigin) (beyond : s.cfg.tolerance < ((p : Int) - f.book).natAbs)
    (surplus : 0 < (p : Int) - f.book) : reconcile f s o p = gain f s o p ((p : Int) - f.book).natAbs := by
  simp only [reconcile, Nat.not_le.mpr beyond, Int.not_lt.mpr (Int.le_of_lt surplus), if_false]

end

/-- A gain that overdraw takes whole leaves the lots as they are. -/
theorem gain_lots (f : Fu) (s : State) (o : ReconOrigin) (p q : Nat) : (gain f s o p q).1.lots =
    if q ≤ f.overdraw then f.lots
    else gainLots f.lots f.heldPrice (q - min f.overdraw q) s.pt.clock s.pt.clockValid :=
  if_congr (by omega) rfl rfl

theorem shrink_book (f : Fu) (s : State) (o : ReconOrigin) (p : Nat) {q : Nat} (held : q ≤ contents f.lots) :
    (shrink f s o p q).1.book = f.book - q := by
  show ((contents (shrinkLots f.heldPrice f.lots q).lots : Int) - f.overdraw) = contents f.lots - f.overdraw - q
  rw [contents_shrinkLots]
  omega

theorem gain_book (f : Fu) (s : State) (o : ReconOrigin) (p q : Nat) : (gain f s o p q).1.book = f.book + q := by
  have owed : (gain f s o p q).1.overdraw = f.overdraw - min f.overdraw q := rfl
  rw [book_eq, book_eq, gain_lots, owed]
  split
  · omega
  · rw [contents_gainLots]
    omega

/-- What a reconciliation leaves of the FU: its record, and the book at the level when the difference is beyond the
tolerance (R121, Table 6-4). -/
structure Reconciled (f : Fu) (s : State) (o : ReconOrigin) (p : Nat) (g : Fu) : Prop where
  origin : g.recon.origin = o
  level : g.recon.level = p
  bookBefore : g.recon.bookBefore = f.book
  difference : g.recon.difference = (p : Int) - f.book
  clock : g.recon.clock = s.pt.clock
  within : ((p : Int) - f.book).natAbs ≤ s.cfg.tolerance →
    g.lots = f.lots ∧ g.overdraw = f.overdraw ∧ g.recon.action = .none ∧ g.recon.corrected = 0
  beyond : s.cfg.tolerance < ((p : Int) - f.book).natAbs →
    g.book = p ∧ g.recon.corrected = ((p : Int) - f.book).natAbs ∧
      g.recon.action = if (p : Int) - f.book < 0 then .shrink else .gain
  cancelled : g.recon.cancelled =
    if 0 < (p : Int) - f.book ∧ s.cfg.tolerance < ((p : Int) - f.book).natAbs
    then min f.overdraw ((p : Int) - f.book).natAbs else 0
  shrunk : g.recon.shrunk =
    if (p : Int) - f.book < 0 ∧ s.cfg.tolerance < ((p : Int) - f.book).natAbs
    then (shrinkLots f.heldPrice f.lots ((p : Int) - f.book).natAbs).value else 0
  value : g.shrinkValue = f.shrinkValue + g.recon.shrunk

theorem reconcile_reconciled (f : Fu) (s : State) (o : ReconOrigin) (p : Nat) :
    Reconciled f s o p (reconcile f s o p).1 := by
  rcases Nat.lt_or_ge s.cfg.tolerance ((p : Int) - f.book).natAbs with beyond | within
  · have notWithin : ¬ ((p : Int) - f.book).natAbs ≤ s.cfg.tolerance := Nat.not_le.mpr beyond
    rcases Int.lt_trichotomy ((p : Int) - f.book) 0 with loss | level | surplus
    · rw [reconcile_loss o beyond loss]
      have held : ((p : Int) - f.book).natAbs ≤ contents f.lots := by
        rw [book_eq] at loss ⊢
        omega
      have noGain : ¬ (0 < (p : Int) - f.book ∧ s.cfg.tolerance < ((p : Int) - f.book).natAbs) := by omega
      exact ⟨rfl, rfl, rfl, rfl, rfl, fun within => absurd within notWithin,
        fun _ => ⟨by rw [shrink_book _ _ _ _ held]; omega, rfl, (if_pos loss).symm⟩, (if_neg noGain).symm,
        (if_pos ⟨loss, beyond⟩).symm, rfl⟩
    · omega
    · rw [reconcile_surplus o beyond surplus]
      have noLoss : ¬ (p : Int) - f.book < 0 := by omega
      exact ⟨rfl, rfl, rfl, rfl, rfl, fun within => absurd within notWithin,
        fun _ => ⟨by rw [gain_book]; omega, rfl, (if_neg noLoss).symm⟩, (if_pos ⟨surplus, beyond⟩).symm,
        (if_neg fun both => noLoss both.1).symm, rfl⟩
  · rw [reconcile_within o within]
    have notBeyond : ¬ s.cfg.tolerance < ((p : Int) - f.book).natAbs := Nat.not_lt.mpr within
    exact ⟨rfl, rfl, rfl, rfl, rfl, fun _ => ⟨rfl, rfl, rfl, rfl⟩, fun beyond => absurd beyond notBeyond,
      (if_neg fun both => notBeyond both.2).symm, (if_neg fun both => notBeyond both.2).symm, rfl⟩

/-! ### What a reconciliation hands on leaves the FU alone -/

/-- Reports that move no fuel: the control reports, a LOT CHANGE and a record handed to the SR. -/
def Report.unfuelled : Report → Bool
  | .bu (.lotChange _ _) | .sr (.touch _) => true
  | r => r.control

theorem unfuelled_of_control {r : Report} (h : r.control = true) : r.unfuelled = true := by
  unfold Report.unfuelled
  split
  · rfl
  · rfl
  · exact h

theorem unfuelled_closed (r : Report) (s : State) (h : r.unfuelled = true) :
    (deliver r s).2.all Report.unfuelled = true := by
  unfold Report.unfuelled at h
  split at h
  · rw [deliver_bu, buHandle, withInterval]
    dsimp only
    split <;> rfl
  · rfl
  · have told := control_closed r s h
    rw [List.all_eq_true] at told ⊢
    exact fun x hx => unfuelled_of_control (told x hx)

theorem deliver_unfuelled_fu (r : Report) (s : State) (h : r.unfuelled = true) : (deliver r s).1.fu = s.fu := by
  cases r with
  | fu m => cases h
  | _ => rfl

theorem handOn_unfuelled (s : State) (k : Nat) {rs : List Report} (h : rs.all Report.unfuelled = true) :
    (s.handOn k rs).fu = s.fu :=
  settle_keeps_of _ unfuelled_closed (·.fu) deliver_unfuelled_fu _ rs s h

theorem thresholdReports_unfuelled (a b : Threshold) : (thresholdReports a b).all Report.unfuelled = true := by
  unfold thresholdReports
  split <;> rfl

theorem shrinkLots_unfuelled (held : Nat) (lots : List Lot) (q : Nat) :
    (shrinkLots held lots q).reports.all Report.unfuelled = true := by
  induction lots generalizing held q with
  | nil => rfl
  | cons l rest ih =>
      unfold shrinkLots
      split
      · rfl
      split
      · rfl
      · exact (List.all_cons ..).trans (ih _ _)

theorem reconcile_unfuelled (f : Fu) (s : State) (o : ReconOrigin) (p : Nat) :
    (reconcile f s o p).2.all Report.unfuelled = true := by
  have records : [Report.sr (.touch .fuelBook), .sr (.touch .shrink)].all Report.unfuelled = true := rfl
  have hours (g : Fu) : (computeHours g s).2.all Report.unfuelled = true := thresholdReports_unfuelled _ _
  unfold reconcile
  dsimp only
  split
  · rfl
  split
  · simp only [shrink, andThen_snd, List.all_append, shrinkLots_unfuelled, records, hours, Bool.and_self]
  · simp only [gain, andThen_snd, List.all_append, records, hours, Bool.and_self]

/-! ### The timer (R120) -/

section
variable {s : State}

theorem exec_reconTimer (up : s.isUp = true) : exec .reconciliationTimerExpiry s =
    .next (State.handOn { s with fu := (reconTimerEnd s.fu s).1 } 1 (reconTimerEnd s.fu s).2) :=
  congrArg Host.Outcome.next (run_one up _)

theorem reconTimerEnd_void {f : Fu} (stopped : f.reconTimer = none) : reconTimerEnd f s = quiet f := by
  simp only [reconTimerEnd, stopped, Option.isNone_none, if_true]

theorem reconTimerEnd_waits {f : Fu} (runs : f.reconTimer.isSome = true) (blind : s.pcu.level = none) :
    reconTimerEnd f s = quiet { f with reconTimer := none, waitLevel := true } := by
  have running : f.reconTimer.isNone = false := by simpa using runs
  simp only [reconTimerEnd, running, blind, Bool.false_eq_true, if_false]

theorem reconTimerEnd_runs {f : Fu} (runs : f.reconTimer.isSome = true) {p : Nat} (level : s.pcu.level = some p) :
    reconTimerEnd f s = reconcile { f with reconTimer := none } s .afterVisit p := by
  have running : f.reconTimer.isNone = false := by simpa using runs
  simp only [reconTimerEnd, running, level, Bool.false_eq_true, if_false]

theorem exec_reconTimer_runs (up : s.isUp = true) (runs : s.fu.reconTimer.isSome = true) {p : Nat}
    (level : s.pcu.level = some p) :
    let timed := reconcile { s.fu with reconTimer := none } s .afterVisit p
    exec .reconciliationTimerExpiry s = .next (State.handOn { s with fu := timed.1 } 1 timed.2) := by
  rw [exec_reconTimer up, reconTimerEnd_runs runs level]

/-! ### RECONCILE (R125) -/

theorem fuReconcile_refused {f : Fu} (ask : Ask)
    (refused : s.cfg.tankFitted = false ∨ f.visiting = true ∨ s.pcu.level = none) :
    fuReconcile f s ask = (f, [.lc (.answer ask .state [])]) := by
  unfold fuReconcile
  dsimp only
  split
  · rfl
  next permitted =>
    obtain ⟨tank, idle⟩ : s.cfg.tankFitted = true ∧ f.visiting = false := by simpa using permitted
    have blind : s.pcu.level = none := by simpa [tank, idle] using refused
    rw [blind]

theorem fuReconcile_runs {f : Fu} (ask : Ask) (tank : s.cfg.tankFitted = true) (idle : f.visiting = false) {p : Nat}
    (level : s.pcu.level = some p) :
    let asked := reconcile { f with reconTimer := none, waitLevel := false } s .tool p
    fuReconcile f s ask = (asked.1, asked.2 ++ [.lc (.answer ask .done (reconBytes asked.1.recon))]) := by
  simp only [fuReconcile, tank, idle, level, Bool.not_true, Bool.or_self, Bool.false_eq_true, if_false, Act.andThen]

theorem exec_reconcile_refused {h : Header} (tag : Byte) (hc : Commands s h) (hl : s.fli.inputs.lock = false)
    (refused : s.cfg.tankFitted = false ∨ s.fu.visiting = true ∨ s.pcu.level = none) :
    exec (.reconcile h tag []) s = .next (s.heard.answered (askOf h .reconcile tag) .state []) := by
  have told : deliver (.fu (.reconcile (askOf h .reconcile tag))) s.heard =
      (s.heard, [.lc (.answer (askOf h .reconcile tag) .state [])]) :=
    deliver_fu_of (fuReconcile_refused (s := s.heard) (f := s.fu) _ refused)
  exact congrArg Host.Outcome.next (run_answered (k := .reconcile) hc (by decide) rfl (by simp [hl]) rfl told)

theorem exec_reconcile_runs {h : Header} (tag : Byte) (hc : Commands s h) (hl : s.fli.inputs.lock = false)
    (tank : s.cfg.tankFitted = true) (idle : s.fu.visiting = false) {p : Nat} (level : s.pcu.level = some p) :
    let asked := reconcile { s.fu with reconTimer := none, waitLevel := false } s.heard .tool p
    exec (.reconcile h tag []) s = .next (State.handOn { s.heard with fu := asked.1 } 2
      (asked.2 ++ [.lc (.answer (askOf h .reconcile tag) .done (reconBytes asked.1.recon))])) := by
  have told : deliver (.fu (.reconcile (askOf h .reconcile tag))) s.heard = _ :=
    deliver_fu_of (fuReconcile_runs (s := s.heard) (f := s.fu) (askOf h .reconcile tag) tank idle level)
  have run : s.run [toolOf .reconcile h tag []] = _ := run_toolOf tag hc (by decide) rfl (by simp [hl])
  rw [SubKind.report, handOn_cons _ _ _ (by decide), told, List.append_nil] at run
  exact congrArg Host.Outcome.next run

end

/-! ### A shrink takes the lots oldest first (R122) -/

theorem shrinkLots_draws {l : Lot} {q : Nat} (within : q < l.remaining) (held : Nat) (rest : List Lot) :
    shrinkLots held (l :: rest) q = ⟨{ l with remaining := l.remaining - q } :: rest, held, q * l.price, []⟩ := by
  rcases Nat.eq_zero_or_pos q with rfl | drawn
  · simp [shrinkLots]
  · simp only [shrinkLots, Nat.ne_of_gt drawn, within, if_false, if_true]

theorem shrinkLots_empties {l : Lot} {q : Nat} (full : 1 ≤ l.remaining) (whole : l.remaining ≤ q) (held : Nat)
    (rest : List Lot) : shrinkLots held (l :: rest) q =
      { shrinkLots l.price rest (q - l.remaining) with
        value := l.remaining * l.price + (shrinkLots l.price rest (q - l.remaining)).value
        reports := lotChange l rest :: (shrinkLots l.price rest (q - l.remaining)).reports } := by
  simp only [shrinkLots, show ¬ q = 0 by omega, Nat.not_lt.mpr whole, if_false]

/-- The decilitres' worth at the lots' prices. -/
def worth (lots : List Lot) : Nat := (lots.map fun l => l.remaining * l.price).sum

/-- A shrink by `q` takes the lots `gone` whole, and the rest from the first of the lots `kept`. -/
structure Taken (held : Nat) (gone kept : List Lot) (q : Nat) (x : Shrunk) : Prop where
  within : contents gone ≤ q
  all : kept = [] → x.lots = [] ∧ x.value = worth gone
  part : ∀ l rest, kept = l :: rest → q - contents gone < l.remaining ∧
    x.lots = { l with remaining := l.remaining - (q - contents gone) } :: rest ∧
      x.value = worth gone + (q - contents gone) * l.price
  price : x.heldPrice = (gone.getLast?.map (·.price)).getD held
  count : x.reports.length = gone.length
  told : ∀ (i : Nat) (l : Lot), gone[i]? = some l →
    x.reports[i]? = some
      (.bu (.lotChange (l.number, l.price) ((gone ++ kept)[i + 1]?.map fun m => (m.number, m.price))))

theorem taken_none {kept : List Lot} {held q : Nat} {x : Shrunk} (all : kept = [] → x.lots = [] ∧ x.value = 0)
    (part : ∀ l rest, kept = l :: rest → q < l.remaining ∧ x.lots = { l with remaining := l.remaining - q } :: rest ∧
      x.value = q * l.price) (price : x.heldPrice = held) (silent : x.reports = []) : Taken held [] kept q x where
  within := Nat.zero_le q
  all := all
  part l rest eq := by simpa [worth] using part l rest eq
  price := price
  count := congrArg List.length silent
  told _ _ h := by simp at h

/-- The oldest lot taken whole, before the others. -/
theorem Taken.cons {l : Lot} {gone kept : List Lot} {held q : Nat} {x : Shrunk} (whole : l.remaining ≤ q)
    (h : Taken l.price gone kept (q - l.remaining) x) :
    Taken held (l :: gone) kept q { x with
      value := l.remaining * l.price + x.value, reports := lotChange l (gone ++ kept) :: x.reports } := by
  obtain ⟨within, all, part, price, count, told⟩ := h
  have left : q - contents (l :: gone) = q - l.remaining - contents gone := by
    rw [contents_cons]
    omega
  have sum : worth (l :: gone) = l.remaining * l.price + worth gone := by simp [worth]
  refine ⟨?_, fun empty => ?_, fun m rest eq => ?_, ?_, congrArg (· + 1) count, fun i m hm => ?_⟩
  · rw [contents_cons]
    omega
  · obtain ⟨lots, value⟩ := all empty
    exact ⟨lots, by rw [sum, value]⟩
  · obtain ⟨small, lots, value⟩ := part m rest eq
    rw [left, sum]
    exact ⟨small, lots, by dsimp only; rw [value, Nat.add_assoc]⟩
  · rw [price, List.getLast?_cons]
    cases gone.getLast? <;> rfl
  · cases i with
    | zero =>
        cases hm
        simp only [List.getElem?_cons_zero, lotChange, Lot.label, List.cons_append, Nat.zero_add,
          List.getElem?_cons_succ, List.head?_eq_getElem?]
        rfl
    | succ i => exact told i m hm

theorem shrinkLots_taken {lots : List Lot} (full : ∀ l ∈ lots, 1 ≤ l.remaining) (held q : Nat) :
    ∃ gone kept, lots = gone ++ kept ∧ Taken held gone kept q (shrinkLots held lots q) := by
  induction lots generalizing held q with
  | nil => exact ⟨[], [], rfl, taken_none (fun _ => ⟨rfl, rfl⟩) nofun rfl rfl⟩
  | cons l rest ih =>
      rcases Nat.lt_or_ge q l.remaining with within | whole
      · rw [shrinkLots_draws within]
        refine ⟨[], l :: rest, rfl, taken_none nofun (fun m tail eq => ?_) rfl rfl⟩
        cases eq
        exact ⟨within, rfl, rfl⟩
      · obtain ⟨gone, kept, rfl, taken⟩ := ih (fun m hm => full m (.tail _ hm)) l.price (q - l.remaining)
        rw [shrinkLots_empties (full l (.head _)) whole]
        exact ⟨l :: gone, kept, rfl, taken.cons whole⟩

/-! ### O49, clause by clause -/

/-- What a reconciliation leaves of the FU stands once its reports have been handed on, and so do the timer and the mark
of a waiting one. -/
theorem handOn_reconciled {f : Fu} {s t : State} {o : ReconOrigin} {p : Nat} (left : t.fu = (reconcile f s o p).1)
    (k : Nat) {rs : List Report} (told : rs.all Report.unfuelled = true) :
    Reconciled f s o p (t.handOn k rs).fu ∧ (t.handOn k rs).fu.reconTimer = f.reconTimer ∧
      (t.handOn k rs).fu.waitLevel = f.waitLevel := by
  obtain ⟨-, timer, wait⟩ := reconcile_keeps f s o p
  rw [handOn_unfuelled t k told, left]
  exact ⟨reconcile_reconciled f s o p, timer, wait⟩

/-- An answer behind reports of a kind it is of itself. -/
theorem all_answered {P : Report → Bool} {ask : Ask} {a : Result} {data : List Byte} {rs : List Report}
    (answer : P (.lc (.answer ask a data)) = true) (h : rs.all P = true) :
    (rs ++ [Report.lc (.answer ask a data)]).all P = true := by
  simp [h, answer]

theorem gainLots_eq (lots : List Lot) (held g clock : Nat) (valid : Bool) :
    (lots = [] → gainLots lots held g clock valid = [gainedLot held g clock valid]) ∧
      (∀ older l, lots = older ++ [l] →
        (l.number = 0 ∨ 8 ≤ lots.length → gainLots lots held g clock valid = older ++ [l.raised g]) ∧
        (l.number ≠ 0 → lots.length < 8 →
          gainLots lots held g clock valid = lots ++ [gainedLot l.price g clock valid])) := by
  refine ⟨?_, ?_⟩
  · rintro rfl
    exact gainLots_nil ..
  · rintro older l rfl
    exact ⟨fun newest => gainLots_newest newest .., fun numbered room => gainLots_entered numbered room ..⟩

theorem gain_eq (f : Fu) (s : State) (o : ReconOrigin) (p q : Nat) :
    let gained : Fu := { f with
      overdraw := f.overdraw - min f.overdraw q
      lots := if q ≤ f.overdraw then f.lots
        else gainLots f.lots f.heldPrice (q - min f.overdraw q) s.pt.clock s.pt.clockValid
      recon := reconRecord f s o p .gain q (min f.overdraw q) 0 }
    gain f s o p q = ((computeHours gained s).1,
      [.sr (.touch .fuelBook), .sr (.touch .shrink)] ++ (computeHours gained s).2) := by
  have lots := gain_lots f s o p q
  dsimp only
  rw [← lots]
  rfl

/-- Settles O49: the timer and RECONCILE by whether they find a level, the record and the book by the difference, a
shrink by the lots it takes, a gain by the lot it enters. -/
theorem reconciliationsMatchTheLevel : Obligations.ReconciliationsMatchTheLevel := by
  refine ⟨fun s => ⟨fun up => ⟨fun stopped => ?void, fun runs blind => ?waits, fun p runs level => ?timed⟩,
    fun h tag hc hl => ⟨exec_reconcile_refused tag hc hl, fun p tank idle level => ?asked⟩⟩,
    fun held lots q full => ?shrink, gainLots_eq, fun f s o p => ⟨reconcile_within o, fun beyond loss => ?loss,
      fun beyond surplus => ?surplus⟩, fun s p level => ⟨fun up runs => exec_reconTimer_runs up runs level,
      fun tank idle ask => deliver_fu_of (fuReconcile_runs ask tank idle level)⟩⟩
  case void => rw [exec_reconTimer up, reconTimerEnd_void stopped, quiet_snd, handOn_nil, quiet_fst]
  case waits => rw [exec_reconTimer up, reconTimerEnd_waits runs blind, quiet_snd, handOn_nil, quiet_fst]
  case timed =>
    refine ⟨_, exec_reconTimer_runs up runs level, ?_⟩
    obtain ⟨r, timer, -⟩ := handOn_reconciled (t := { s with fu := _ }) rfl 1 (reconcile_unfuelled ..)
    obtain ⟨view, pcu, inputs⟩ := handOn_inner { s with fu := _ } 1 (reconcile_inner ..)
    exact ⟨timer, r.origin, r.level, r.bookBefore, r.difference, r.clock, r.within, r.beyond, r.cancelled, r.shrunk,
      r.value, pcu, inputs, view⟩
  case asked =>
    refine ⟨_, exec_reconcile_runs tag hc hl tank idle level, ?_⟩
    obtain ⟨r, timer, wait⟩ := handOn_reconciled (t := { s.heard with fu := _ }) rfl 2
      (all_answered (P := Report.unfuelled) rfl (reconcile_unfuelled ..))
    obtain ⟨view, pcu, inputs⟩ := handOn_inner { s.heard with fu := _ } 2
      (all_answered (P := Report.inner) rfl (reconcile_inner ..))
    exact ⟨⟨timer, r.origin, r.level, r.bookBefore, r.difference, r.clock, r.within, r.beyond, r.cancelled, r.shrunk,
      r.value, pcu, inputs, view⟩, wait⟩
  case shrink =>
    obtain ⟨gone, kept, rfl, taken⟩ := shrinkLots_taken full held q
    exact ⟨gone, kept, rfl, taken.within, taken.all, taken.part, taken.price, taken.count, taken.told⟩
  case loss =>
    rw [reconcile_loss o beyond loss]
    exact ⟨rfl, rfl⟩
  case surplus =>
    rw [reconcile_surplus o beyond surplus, gain_eq]
    exact ⟨rfl, rfl⟩

end Sys2Proof.Machine
end

section
/-! SUPPORT. Frames of a terminal, and what the acts of a delivery and a visit hand on (O50, O51). -/

namespace Sys2Proof.Machine

/-! ### What reaches the FU -/

/-- A command after which nothing is handed on. -/
theorem next_of_silent {c : Instr} {s t : State} {k : Nat} (h : exec c s = .next (State.handOn t k [])) :
    exec c s = .next t := h.trans (congrArg _ (handOn_nil t k))

section
variable {s : State} {h : Header} {p : List Byte} {x : Act Fu}

theorem run_fu (up : s.isUp = true) {m : FuMsg} (told : fuHandle m s = x) :
    s.run [.fu m] = State.handOn { s with fu := x.1 } 1 x.2 := by
  rw [run_one up, deliver_fu_of told]

/-- The kinds of the FU come from anyone: its own sender test is the terminals' (R128, R166). -/
theorem kind_of_fuReport {k : Kind} {m : FuMsg} (owner : frameReport h k p = [.fu m]) :
    k.notTaken = false ∧ k.stationKind = false ∧ k ≠ .toolCommand := by
  cases k with
  | deliveryOpen | deliveryClose | visit | visitEnd => exact ⟨rfl, rfl, nofun⟩
  | _ => cases owner

/-- An accepted frame of a kind the FU owns: what the FU makes of it is handed on, from the state the frame's end
leaves. -/
theorem run_frame_fu {k : Kind} {m : FuMsg} (ha : Accepts s h) (hl : lengthTest k p = true)
    (owner : frameReport h k p = [.fu m]) (told : fuHandle m s.heard = x) :
    s.run [frameOf k h p] = State.handOn { s.heard with fu := x.1 } 2 x.2 := by
  obtain ⟨up, -⟩ := id ha
  obtain ⟨taken, free, noTool⟩ := kind_of_fuReport owner
  have handed : lcHandle (.frame h (BitVec.ofNat 8 k.code) p) s = (s.heard.lc, [.fu m]) :=
    (frameEnd_of_accepts ha _ _).trans
      (by simp only [dispatchFrame, Kind.ofCode?_code, taken, senderTest, free, hl, noTool, owner, Bool.not_false,
        Bool.true_or, Bool.not_true, Bool.or_self, Bool.false_eq_true, if_false])
  have run : s.run [frameOf k h p] = s.heard.handOn 1 [.fu m] := by
    rw [run_one up, frameOf, deliver_lc, handed]
    rfl
  rw [run, handOn_cons _ _ _ (by decide), deliver_fu_of told, List.append_nil]

theorem exec_deliveryOpen (ha : Accepts s h) (hl : p.length = 8)
    (told : deliveryOpen s.fu s.heard h.sender.toNat (fieldAt p 0 2) (fieldAt p 2 2) (fieldAt p 4 4) = x) :
    exec (.deliveryOpen h p) s = .next (State.handOn { s.heard with fu := x.1 } 2 x.2) :=
  congrArg Host.Outcome.next (run_frame_fu (k := .deliveryOpen) ha (beq_iff_eq.mpr hl) rfl told)

theorem exec_deliveryClose (ha : Accepts s h) (hl : p.length = 2)
    (told : deliveryClose s.fu s.heard h.sender.toNat (fieldAt p 0 2) = x) :
    exec (.deliveryClose h p) s = .next (State.handOn { s.heard with fu := x.1 } 2 x.2) :=
  congrArg Host.Outcome.next (run_frame_fu (k := .deliveryClose) ha (beq_iff_eq.mpr hl) rfl told)

theorem exec_visit (ha : Accepts s h) (hl : p.length = 2)
    (told : visitFrame s.fu s.heard h.sender.toNat (fieldAt p 0 2) = x) :
    exec (.visit h p) s = .next (State.handOn { s.heard with fu := x.1 } 2 x.2) :=
  congrArg Host.Outcome.next (run_frame_fu (k := .visit) ha (beq_iff_eq.mpr hl) rfl told)

theorem exec_visitEnd (ha : Accepts s h) (hl : p.length = 2)
    (told : visitEndFrame s.fu h.sender.toNat (fieldAt p 0 2) = x) :
    exec (.visitEnd h p) s = .next (State.handOn { s.heard with fu := x.1 } 2 x.2) :=
  congrArg Host.Outcome.next (run_frame_fu (k := .visitEnd) ha (beq_iff_eq.mpr hl) rfl told)

theorem exec_deliveryRecordExpiry (up : s.isUp = true) (told : recordExpiry s.fu = x) :
    exec .deliveryRecordExpiry s = .next (State.handOn { s with fu := x.1 } 1 x.2) :=
  congrArg Host.Outcome.next (run_fu up told)

theorem exec_claimRepeatExpiry (up : s.isUp = true) (told : claimRepeatEnd s.fu s = x) :
    exec .claimRepeatExpiry s = .next (State.handOn { s with fu := x.1 } 1 x.2) :=
  congrArg Host.Outcome.next (run_fu up told)

theorem exec_flowStallExpiry (up : s.isUp = true) (told : flowStallEnd s.fu = x) :
    exec .flowStallExpiry s = .next (State.handOn { s with fu := x.1 } 1 x.2) :=
  congrArg Host.Outcome.next (run_fu up told)

theorem exec_pauseTimerExpiry (up : s.isUp = true) (told : pauseTimerEnd s.fu = x) :
    exec .pauseTimerExpiry s = .next (State.handOn { s with fu := x.1 } 1 x.2) :=
  congrArg Host.Outcome.next (run_fu up told)

end

/-! ### The terminals' sender test (R128) -/

section
variable {h : Header} {number : Nat}

theorem deliverySender_iff : deliverySender h.sender.toNat number = true ↔ FromTool h ∧ number ≠ 0 := by
  simp [deliverySender, FromTool]

theorem not_deliverySender_iff : deliverySender h.sender.toNat number = false ↔ ¬ FromTool h ∨ number = 0 := by
  rw [← Bool.not_eq_true, deliverySender_iff, not_and_or, not_not]

end

/-! ### VALVE, frames and the end of a visit handed on (R135, R139) -/

section
variable {s : State} {k : Nat}

theorem handOn_offer_cons (f : TxFrame) (rest : List Report) (few : k < 10) :
    s.handOn k (.lc (.offer f) :: rest) = (s.offered f).handOn (k + 1) rest :=
  handOn_cons _ _ _ few

theorem handOn_valve_closed (rest : List Report) (few : k < 10) : s.handOn k (.fli (.valve false) :: rest) =
    State.handOn { s with fli := { s.fli with valve := false } } (k + 1) rest :=
  handOn_cons _ _ _ few

/-- With FILL KEY reported on and HIGH LEVEL off, VALVE opens unless a kept change bars it (R135, log 57). -/
theorem handOn_valve_opened (key : s.fli.inputs.fillKey = true) (high : s.fli.inputs.highLevel = false)
    (tank : s.cfg.tankFitted = true) (few : k < 10) : s.handOn k [.fli (.valve true)] =
      { s with fli := { s.fli with valve := s.fli.contact .fillKey && !s.fli.contact .highLevel } } := by
  rw [handOn_cons _ _ _ few, deliver_fli]
  simp only [fliHandle, Fli.mayFill, key, high, tank, quiet, Bool.true_and, Bool.not_false, Bool.and_true,
    List.append_nil, handOn_nil]

/-- The end of a visit, before what else the FU hands over with it (R139). -/
theorem handOn_endVisit_append (f g : Fu) (v : Visit) (c : EndCause) (rest : List Report) (few : k < 9) :
    State.handOn { s with fu := g } k ((endVisit f v c).2 ++ rest) =
      State.handOn { s.visitEnded f v c with fu := g } (k + 2) rest := by
  have closed : State.handOn { s with fu := g } k ((endVisit f v c).2 ++ rest) = _ :=
    handOn_valve_closed (.lc (.offer (terminalFrame .fillDone v.terminal (fillDonePayload f v c))) :: rest) (by omega)
  rw [closed, handOn_offer_cons _ _ (by omega)]
  rfl

theorem handOn_endVisit (f : Fu) (v : Visit) (c : EndCause) (few : k < 9) :
    State.handOn { s with fu := (endVisit f v c).1 } k (endVisit f v c).2 = s.visitEnded f v c := by
  rw [← List.append_nil (endVisit f v c).2, handOn_endVisit_append _ _ _ _ _ few, handOn_nil]
  rfl

end

/-! ### A visit in progress -/

section
variable {f : Fu} {v : Visit}

theorem visiting_of_inProgress (hv : f.visit = some v) (going : v.inProgress = true) : f.visiting = true := by
  simp only [Fu.visiting, hv, going]

theorem not_inProgress_of_idle (idle : f.visiting = false) (hv : f.visit = some v) : v.inProgress = false := by
  simpa only [Fu.visiting, hv] using idle

end

end Sys2Proof.Machine
end

section
/-! SUPPORT. Deliveries opened, claimed and closed (O50). -/

namespace Sys2Proof.Machine

/-! ### The record cleared (R130) -/

section
variable {f : Fu} {d : Delivery}

theorem clearDelivery_idle (idle : f.visiting = false) (c : EndCause) :
    clearDelivery f d c = quiet { f with delivery := none, claimRepeat := none } := by
  unfold clearDelivery
  dsimp only
  split
  next v hv => simp only [not_inProgress_of_idle idle hv, Bool.false_eq_true, false_and, if_false]
  · rfl

theorem clearDelivery_ends {v : Visit} (hv : f.visit = some v) (going : v.inProgress = true)
    (own : v.number = d.number) (c : EndCause) :
    clearDelivery f d c = endVisit { f with delivery := none, claimRepeat := none } v c := by
  simp only [clearDelivery, hv, going, own, and_self, if_true]

theorem handOn_clearDelivery_idle (t : State) (idle : f.visiting = false) (c : EndCause) (k : Nat) :
    State.handOn { t with fu := (clearDelivery f d c).1 } k (clearDelivery f d c).2 =
      { t with fu := { f with delivery := none, claimRepeat := none } } := by
  rw [clearDelivery_idle idle]
  exact handOn_nil _ _

theorem handOn_clearDelivery_ends (t : State) {v : Visit} (hv : f.visit = some v) (going : v.inProgress = true)
    (own : v.number = d.number) (c : EndCause) {k : Nat} (few : k < 9) :
    State.handOn { t with fu := (clearDelivery f d c).1 } k (clearDelivery f d c).2 =
      t.visitEnded { f with delivery := none, claimRepeat := none } v c := by
  rw [clearDelivery_ends hv going own]
  exact handOn_endVisit _ _ _ few

end

/-! ### A claim judged (R131, R132) -/

theorem claimHolds_iff {f : Fu} {s : State} {d : Delivery} : claimHolds f s d = true ↔
    s.cfg.tankFitted = true ∧ s.lc.duplicate = false ∧
      (f.hours ≤ s.cfg.claimThr ∨ 40 * (s.cfg.tankDl : Int) ≤ ((s.cfg.fillLimitDl : Int) - f.book) * 100) ∧
      f.book < (s.cfg.fillLimitDl : Int) ∧ (f.lots.length < 8 ∨ ∃ l ∈ f.lots, l.number = d.number) ∧ 0 < d.truck := by
  simp only [claimHolds, atLimit, Bool.and_eq_true, Bool.or_eq_true, decide_eq_true_eq, Bool.not_eq_true',
    decide_eq_false_iff_not, Int.not_le, carries_iff, and_assoc]

/-- The free space in whole litres a claim carries (R132). -/
def Fu.freeLitres (f : Fu) (s : State) : Nat := min 65535 (((s.cfg.fillLimitDl : Int) - f.book) / 10).toNat

theorem freeLitres_lt (f : Fu) (s : State) : f.freeLitres s < 65536 :=
  Nat.lt_of_le_of_lt (Nat.min_le_left _ _) (by decide)

theorem claimPayload_eq (f : Fu) (s : State) (d : Delivery) : claimPayload f s d =
    beBytes 2 d.number ++ beBytes 2 f.hours ++ beBytes 2 (f.freeLitres s) ++
      [BitVec.ofNat 8 (8 - f.lots.length)] := by
  rw [claimPayload, clampTo_zero, Fu.freeLitres]

theorem claimPayload_fields (f : Fu) (s : State) (d : Delivery) (number : d.number < 65536) (hours : f.hours < 65536) :
    let p := claimPayload f s d
    p.length = 7 ∧ fieldAt p 0 2 = d.number ∧ fieldAt p 2 2 = f.hours ∧ fieldAt p 4 2 = f.freeLitres s ∧
      fieldAt p 6 1 = 8 - f.lots.length := by
  have atNumber : fieldAt (claimPayload f s d) 0 2 = beNat (beBytes 2 d.number) := by
    simp [claimPayload_eq, fieldAt, beBytes]
  have atHours : fieldAt (claimPayload f s d) 2 2 = beNat (beBytes 2 f.hours) := by
    simp [claimPayload_eq, fieldAt, beBytes]
  have atSpace : fieldAt (claimPayload f s d) 4 2 = beNat (beBytes 2 (f.freeLitres s)) := by
    simp [claimPayload_eq, fieldAt, beBytes]
  have atSlots : fieldAt (claimPayload f s d) 6 1 = beNat [BitVec.ofNat 8 (8 - f.lots.length)] := by
    simp [claimPayload_eq, fieldAt, beBytes]
  exact ⟨by simp [claimPayload_eq, beBytes], atNumber.trans (beNat_beBytes_of_lt number),
    atHours.trans (beNat_beBytes_of_lt hours), atSpace.trans (beNat_beBytes_of_lt (freeLitres_lt f s)),
    atSlots.trans (beNat_byte (by omega))⟩

/-- A claim judged: the frame offered and the repeat timer started, or the timer stopped. -/
def State.claimJudged (t : State) (f : Fu) (s : State) (d : Delivery) : State :=
  if claimHolds f s d then
    State.offered { t with fu := { f with claimRepeat := some 60000 } }
      (terminalFrame .fillClaim d.terminal (claimPayload f s d))
  else { t with fu := { f with claimRepeat := none } }

theorem handOn_judgeClaim (t : State) (f : Fu) (s : State) (d : Delivery) {k : Nat} (few : k < 10) :
    State.handOn { t with fu := (judgeClaim f s d).1 } k (judgeClaim f s d).2 = t.claimJudged f s d := by
  unfold judgeClaim State.claimJudged
  split
  · exact handOn_offer _ _ few
  · exact handOn_nil _ _

/-! ### DELIVERY OPEN (R128, R129) -/

section
variable {f : Fu} {s : State} {n number price truck : Nat}

theorem deliveryOpen_refused (no : deliverySender n number = false ∨ s.cfg.tankFitted = false) :
    deliveryOpen f s n number price truck = quiet f := by
  have refused : (!deliverySender n number || !s.cfg.tankFitted) = true := by simpa using no
  exact if_pos refused

variable (ok : deliverySender n number = true) (tank : s.cfg.tankFitted = true)
include ok tank

theorem deliveryOpen_refreshes {d : Delivery} (hd : f.delivery = some d) (same : d.number = number) :
    deliveryOpen f s n number price truck =
      quiet { f with delivery := some { d with price := price, truck := truck, terminal := n, age := 30000 } } := by
  simp only [deliveryOpen, ok, tank, hd, same, Bool.not_true, Bool.or_self, Bool.false_eq_true, if_false, if_true]

theorem deliveryOpen_enters
    (new : f.delivery = none ∨ (f.delivery.map (·.number) ≠ some number ∧ f.visiting = false)) :
    let fresh : Delivery := ⟨number, price, n, truck, false, 30000⟩
    deliveryOpen f s n number price truck = judgeClaim { f with delivery := some fresh } s fresh := by
  simp only [deliveryOpen, ok, tank, Bool.not_true, Bool.or_self, Bool.false_eq_true, if_false]
  split
  next d hd =>
    obtain ⟨other, idle⟩ : d.number ≠ number ∧ f.visiting = false := by simpa [hd] using new
    rw [if_neg other, clearDelivery_idle idle]
    rfl
  · rfl

theorem deliveryOpen_replaces {d : Delivery} {v : Visit} (hd : f.delivery = some d) (other : d.number ≠ number)
    (hv : f.visit = some v) (going : v.inProgress = true) (own : v.number = d.number) :
    let fresh : Delivery := ⟨number, price, n, truck, false, 30000⟩
    deliveryOpen f s n number price truck =
      (endVisit { f with delivery := none, claimRepeat := none } v .recordReplaced).andThen fun g =>
        judgeClaim { g with delivery := some fresh } s fresh := by
  simp only [deliveryOpen, ok, tank, hd, other, clearDelivery_ends hv going own, Bool.not_true, Bool.or_self,
    Bool.false_eq_true, if_false]

end

/-! ### DELIVERY CLOSE and the timers (R128, R130, R132) -/

section
variable {f : Fu} {s : State} {n number : Nat}

theorem deliveryClose_refused
    (no : deliverySender n number = false ∨ s.cfg.tankFitted = false ∨ f.delivery.map (·.number) ≠ some number) :
    deliveryClose f s n number = quiet f := by
  unfold deliveryClose
  split
  · rfl
  next permitted =>
    obtain ⟨ok, tank⟩ : deliverySender n number = true ∧ s.cfg.tankFitted = true := by simpa using permitted
    split
    next d hd =>
      have other : d.number ≠ number := by simpa [ok, tank, hd] using no
      exact if_neg other
    · rfl

theorem deliveryClose_clears {d : Delivery} (ok : deliverySender n number = true) (tank : s.cfg.tankFitted = true)
    (hd : f.delivery = some d) (own : d.number = number) :
    deliveryClose f s n number = clearDelivery f d .deliveryClosed := by
  simp only [deliveryClose, ok, tank, hd, own, Bool.not_true, Bool.or_self, Bool.false_eq_true, if_false, if_true]

theorem recordExpiry_void (absent : f.delivery = none) : recordExpiry f = quiet f := by
  simp only [recordExpiry, absent]

theorem recordExpiry_clears {d : Delivery} (hd : f.delivery = some d) :
    recordExpiry f = clearDelivery f d .recordExpired := by
  simp only [recordExpiry, hd]

theorem claimRepeatEnd_void (stopped : f.claimRepeat = none) : claimRepeatEnd f s = quiet f := by
  simp only [claimRepeatEnd, stopped, Option.isNone_none, if_true]

theorem claimRepeatEnd_ends (runs : f.claimRepeat.isSome = true)
    (done : f.delivery = none ∨ ∃ d, f.delivery = some d ∧ d.visited = true) :
    claimRepeatEnd f s = quiet { f with claimRepeat := none } := by
  have running : f.claimRepeat.isNone = false := by simpa using runs
  rcases done with absent | ⟨d, hd, visited⟩
  · simp only [claimRepeatEnd, running, absent, Bool.false_eq_true, if_false]
  · simp only [claimRepeatEnd, running, hd, visited, Bool.false_eq_true, if_false, if_true]

theorem claimRepeatEnd_judges {d : Delivery} (runs : f.claimRepeat.isSome = true) (hd : f.delivery = some d)
    (unvisited : d.visited = false) : claimRepeatEnd f s = judgeClaim f s d := by
  have running : f.claimRepeat.isNone = false := by simpa using runs
  simp only [claimRepeatEnd, running, hd, unvisited, Bool.false_eq_true, if_false]

end

/-! ### O50, clause by clause -/

section
variable {s : State} {h : Header} {p : List Byte}

theorem exec_deliveryOpen_enters (ha : Accepts s h) (hl : p.length = 8) (tool : FromTool h)
    (named : fieldAt p 0 2 ≠ 0) (tank : s.cfg.tankFitted = true)
    (new : s.fu.delivery = none ∨ (s.fu.delivery.map (·.number) ≠ some (fieldAt p 0 2) ∧ s.fu.visiting = false)) :
    let fresh : Delivery := ⟨fieldAt p 0 2, fieldAt p 2 2, h.sender.toNat, fieldAt p 4 4, false, 30000⟩
    exec (.deliveryOpen h p) s = .next (s.heard.claimJudged { s.fu with delivery := some fresh } s fresh) := by
  rw [exec_deliveryOpen ha hl (deliveryOpen_enters (deliverySender_iff.mpr ⟨tool, named⟩) tank new)]
  exact congrArg _ (handOn_judgeClaim s.heard _ s.heard _ (by decide))

theorem exec_deliveryOpen_replaces (ha : Accepts s h) (hl : p.length = 8) (tool : FromTool h)
    (named : fieldAt p 0 2 ≠ 0) (tank : s.cfg.tankFitted = true) {d : Delivery} {v : Visit}
    (hd : s.fu.delivery = some d) (other : d.number ≠ fieldAt p 0 2) (hv : s.fu.visit = some v)
    (going : v.inProgress = true) (own : v.number = d.number) :
    let fresh : Delivery := ⟨fieldAt p 0 2, fieldAt p 2 2, h.sender.toNat, fieldAt p 4 4, false, 30000⟩
    let left : State := s.heard.visitEnded { s.fu with delivery := none, claimRepeat := none } v .recordReplaced
    exec (.deliveryOpen h p) s = .next (left.claimJudged { left.fu with delivery := some fresh } s fresh) := by
  rw [exec_deliveryOpen ha hl
    (deliveryOpen_replaces (deliverySender_iff.mpr ⟨tool, named⟩) tank hd other hv going own)]
  refine congrArg Host.Outcome.next ((handOn_endVisit_append _ _ _ _ _ (by decide)).trans ?_)
  exact handOn_judgeClaim _ _ s.heard _ (by decide)

end

/-- Settles O50: DELIVERY OPEN by the record it finds, the record cleared by whether a visit of its number goes on, a
claim by its conditions. -/
theorem deliveriesAreOpenedAndClosed : Obligations.DeliveriesAreOpenedAndClosed := by
  refine ⟨fun h p s ha hl => ⟨fun no => ?openRefused, fun tool named tank => ⟨fun d hd same => ?refreshes,
      fun new => ⟨fun holds => ?claimed, fun fails => ?unclaimed⟩,
      fun d v hd other hv going own => ⟨fun holds => ?replacedClaimed, fun fails => ?replacedUnclaimed⟩⟩⟩,
    fun h p s ha hl => ⟨fun no => ?closeRefused, fun tool named tank open_ => ?closes⟩,
    fun s up => ⟨fun absent => ?noRecord, fun d hd => ⟨fun idle => ?expires, fun v hv going own => ?expiresEnding⟩,
      fun stopped => ?noRepeat, fun runs => ⟨fun absent => ?repeatGone, fun d hd done => ?repeatOver,
        fun d hd unvisited holds => ?repeats⟩⟩,
    fun f s d => ⟨claimHolds_iff, claimPayload_fields f s d⟩⟩
  case openRefused =>
    have refused : deliverySender h.sender.toNat (fieldAt p 0 2) = false ∨ s.cfg.tankFitted = false := by
      rw [not_deliverySender_iff, or_assoc]
      exact no
    exact next_of_silent (exec_deliveryOpen ha hl (deliveryOpen_refused refused))
  case refreshes =>
    have ok := deliverySender_iff.mpr ⟨tool, named⟩
    exact next_of_silent (exec_deliveryOpen ha hl (deliveryOpen_refreshes ok tank hd same))
  case claimed =>
    exact (exec_deliveryOpen_enters ha hl tool named tank new).trans (congrArg _ (if_pos holds))
  case unclaimed =>
    exact (exec_deliveryOpen_enters ha hl tool named tank new).trans
      (congrArg _ (if_neg (Bool.eq_false_iff.mp fails)))
  case replacedClaimed =>
    exact (exec_deliveryOpen_replaces ha hl tool named tank hd other hv going own).trans (congrArg _ (if_pos holds))
  case replacedUnclaimed =>
    exact (exec_deliveryOpen_replaces ha hl tool named tank hd other hv going own).trans
      (congrArg _ (if_neg (Bool.eq_false_iff.mp fails)))
  case closeRefused =>
    have refused : deliverySender h.sender.toNat (fieldAt p 0 2) = false ∨ s.cfg.tankFitted = false ∨
        s.fu.delivery.map (·.number) ≠ some (fieldAt p 0 2) := by
      rw [not_deliverySender_iff, or_assoc]
      exact no
    exact next_of_silent (exec_deliveryClose ha hl (deliveryClose_refused refused))
  case closes =>
    obtain ⟨d, hd, own⟩ := Option.map_eq_some_iff.mp open_
    have closed := exec_deliveryClose ha hl
      (deliveryClose_clears (s := s.heard) (deliverySender_iff.mpr ⟨tool, named⟩) tank hd own)
    exact ⟨fun idle => closed.trans (congrArg _ (handOn_clearDelivery_idle _ idle _ _)), fun v hv going same =>
      closed.trans (congrArg _ (handOn_clearDelivery_ends _ hv going (same.trans own.symm) _ (by decide)))⟩
  case noRecord => exact next_of_silent (exec_deliveryRecordExpiry up (recordExpiry_void absent))
  case expires =>
    exact (exec_deliveryRecordExpiry up (recordExpiry_clears hd)).trans
      (congrArg _ (handOn_clearDelivery_idle _ idle _ _))
  case expiresEnding =>
    exact (exec_deliveryRecordExpiry up (recordExpiry_clears hd)).trans
      (congrArg _ (handOn_clearDelivery_ends _ hv going own _ (by decide)))
  case noRepeat => exact next_of_silent (exec_claimRepeatExpiry up (claimRepeatEnd_void stopped))
  case repeatGone =>
    exact next_of_silent (exec_claimRepeatExpiry up (claimRepeatEnd_ends runs (.inl absent)))
  case repeatOver =>
    rcases Bool.eq_false_or_eq_true d.visited with visited | unvisited
    · exact next_of_silent (exec_claimRepeatExpiry up (claimRepeatEnd_ends runs (.inr ⟨d, hd, visited⟩)))
    · have fails : claimHolds s.fu s d = false := done.resolve_left (by simp [unvisited])
      rw [exec_claimRepeatExpiry up (claimRepeatEnd_judges runs hd unvisited), handOn_judgeClaim _ _ _ _ (by decide)]
      exact congrArg _ (if_neg (Bool.eq_false_iff.mp fails))
  case repeats =>
    rw [exec_claimRepeatExpiry up (claimRepeatEnd_judges runs hd unvisited), handOn_judgeClaim _ _ _ _ (by decide)]
    exact congrArg _ (if_pos holds)

end Sys2Proof.Machine
end

section
/-! SUPPORT. Visits judged, begun, paused, resumed and ended (O51). -/

namespace Sys2Proof.Machine

/-! ### The pause test (R136) -/

theorem atLimit_iff {f : Fu} {s : State} : atLimit f s = true ↔ (s.cfg.fillLimitDl : Int) ≤ f.book :=
  decide_eq_true_iff

section
variable {f : Fu} {s : State}

theorem pauseTest_keyOff (key : s.fli.inputs.fillKey = false) : pauseTest f s = some .keyOff := by
  simp only [pauseTest, key, Bool.not_false, if_true]

variable (key : s.fli.inputs.fillKey = true)
include key

theorem pauseTest_highLevel (high : s.fli.inputs.highLevel = true) : pauseTest f s = some .highLevel := by
  simp only [pauseTest, key, high, Bool.not_true, Bool.false_eq_true, if_false, if_true]

variable (high : s.fli.inputs.highLevel = false)
include high

theorem pauseTest_fillLimit (full : (s.cfg.fillLimitDl : Int) ≤ f.book) : pauseTest f s = some .fillLimit := by
  simp only [pauseTest, key, high, atLimit_iff.mpr full, Bool.not_true, Bool.false_eq_true, if_false, if_true]

theorem pauseTest_clear (room : ¬ (s.cfg.fillLimitDl : Int) ≤ f.book) : pauseTest f s = none := by
  simp only [pauseTest, key, high, atLimit_iff, room, Bool.not_true, Bool.false_eq_true, if_false]

end

/-! ### PAUSED and FLOWING entered (R134 to R137) -/

/-- The FU in a visit just PAUSED. -/
def Fu.pausing (f : Fu) (v : Visit) (c : PauseCause) : Fu :=
  { f with visit := some { v with state := .paused c }, flowStall := none, pauseTimer := some 600000 }

/-- The FU in a visit just FLOWING. -/
def Fu.filling (f : Fu) (v : Visit) : Fu :=
  { f with visit := some { v with state := .flowing }, flowStall := some 120000, pauseTimer := none }

/-- The FU in a visit PAUSED on, another cause recorded. -/
def Fu.recording (f : Fu) (v : Visit) (c : PauseCause) : Fu := { f with visit := some { v with state := .paused c } }

section
variable {f : Fu} {v : Visit} {t : State} {k : Nat}

theorem enterPaused_eq (f : Fu) (v : Visit) (c : PauseCause) :
    enterPaused f v c = (f.pausing v c, [.fli (.valve false)]) := rfl

theorem enterFlowing_eq (f : Fu) (v : Visit) : enterFlowing f v = (f.filling v, [.fli (.valve true)]) := rfl

theorem handOn_enterPaused (f : Fu) (v : Visit) (c : PauseCause) (few : k < 10) :
    State.handOn { t with fu := (enterPaused f v c).1 } k (enterPaused f v c).2 =
      { t with fu := f.pausing v c, fli := { t.fli with valve := false } } := by
  rw [enterPaused_eq, handOn_valve_closed _ few, handOn_nil]

theorem handOn_enterFlowing (f : Fu) (v : Visit) (key : t.fli.inputs.fillKey = true)
    (high : t.fli.inputs.highLevel = false) (tank : t.cfg.tankFitted = true) (few : k < 10) :
    State.handOn { t with fu := (enterFlowing f v).1 } k (enterFlowing f v).2 =
      { t with
        fu := f.filling v
        fli := { t.fli with valve := t.fli.contact .fillKey && !t.fli.contact .highLevel } } := by
  rw [enterFlowing_eq]
  exact handOn_valve_opened key high tank few

theorem causeCleared_records {s : State} {c : PauseCause} (next : pauseTest f s = some c) :
    causeCleared f s v = quiet (f.recording v c) := by
  simp only [causeCleared, next, Fu.recording]

theorem causeCleared_flows {s : State} (clear : pauseTest f s = none) : causeCleared f s v = enterFlowing f v := by
  simp only [causeCleared, clear]

theorem handOn_causeCleared_records {s : State} {c : PauseCause} (next : pauseTest f s = some c) :
    State.handOn { t with fu := (causeCleared f s v).1 } k (causeCleared f s v).2 =
      { t with fu := f.recording v c } := by
  rw [causeCleared_records next]
  exact handOn_nil _ _

theorem handOn_causeCleared_flows (key : t.fli.inputs.fillKey = true) (high : t.fli.inputs.highLevel = false)
    (tank : t.cfg.tankFitted = true) (room : ¬ (t.cfg.fillLimitDl : Int) ≤ f.book) (few : k < 10) :
    State.handOn { t with fu := (causeCleared f t v).1 } k (causeCleared f t v).2 =
      { t with
        fu := f.filling v
        fli := { t.fli with valve := t.fli.contact .fillKey && !t.fli.contact .highLevel } } := by
  rw [causeCleared_flows (pauseTest_clear key high room), handOn_enterFlowing f v key high tank few]

end

/-! ### VISIT judged (Table 7-3) -/

section
variable {f : Fu} {s : State} {n number : Nat}

theorem judgeVisit_noTank (bare : s.cfg.tankFitted = false) : judgeVisit f s number = (.noTank, false) := by
  simp only [judgeVisit, bare, Bool.not_false, if_true]

variable (tank : s.cfg.tankFitted = true)
include tank

section
variable {v : Visit} (hv : f.visit = some v) (going : v.inProgress = true)
include hv going

theorem judgeVisit_same (own : v.number = number) : judgeVisit f s number = (.accepted, false) := by
  simp only [judgeVisit, tank, visiting_of_inProgress hv going, hv, own, Option.map_some, Bool.not_true,
    Bool.false_eq_true, if_false, if_true]

theorem judgeVisit_busy (other : v.number ≠ number) : judgeVisit f s number = (.busy, false) := by
  simp only [judgeVisit, tank, visiting_of_inProgress hv going, hv, other, Option.map_some, Option.some.injEq,
    Bool.not_true, Bool.false_eq_true, if_false, if_true]

end

variable (idle : f.visiting = false)
include idle

theorem judgeVisit_notOpen (closed : f.delivery.map (·.number) ≠ some number) :
    judgeVisit f s number = (.notOpen, false) := by
  simp only [judgeVisit, tank, idle, closed, Bool.not_true, Bool.false_eq_true, if_false, ne_eq, not_false_eq_true,
    if_true]

variable (opened : f.delivery.map (·.number) = some number)
include opened

theorem judgeVisit_full (full : ¬ (f.lots.length < 8 ∨ f.carries number = true)) :
    judgeVisit f s number = (.full, false) := by
  obtain ⟨most, unheld⟩ : 8 ≤ f.lots.length ∧ f.carries number = false := by simpa using full
  simp only [judgeVisit, tank, idle, opened, most, unheld, Bool.not_true, Bool.false_eq_true, if_false, ne_eq,
    not_true_eq_false, Bool.not_false, and_self, if_true]

theorem judgeVisit_accepted (room : f.lots.length < 8 ∨ f.carries number = true) :
    judgeVisit f s number = (.accepted, true) := by
  have fits : ¬ (8 ≤ f.lots.length ∧ (!f.carries number) = true) := by
    rintro ⟨most, unheld⟩
    rcases room with few | held
    · omega
    · simp [held] at unheld
  simp only [judgeVisit, tank, idle, opened, fits, Bool.not_true, Bool.false_eq_true, if_false, ne_eq,
    not_true_eq_false]

end

/-! ### VISIT accepted (R134) -/

/-- The FU with its delivery visited: no claim is repeated, no reconciliation due (R124, R132). -/
def Fu.visited (f : Fu) (d : Delivery) : Fu :=
  { f with delivery := some { d with visited := true }, claimRepeat := none, reconTimer := none, waitLevel := false }

/-- The visit of a delivery as it begins (Table 7-2). -/
def Delivery.visit (d : Delivery) (number sender : Nat) : Visit :=
  ⟨.flowing, number, d.price, sender, 0, 0, false⟩

section
variable {f : Fu} {s : State} {n number : Nat}

theorem acceptVisit_pauses {d : Delivery} {c : PauseCause} (cause : pauseTest f s = some c) :
    acceptVisit f s n number d = enterPaused (f.visited d) (d.visit number n) c := by
  have same : pauseTest (f.visited d) s = some c := cause
  unfold Fu.visited at same
  simp only [acceptVisit, same]
  rfl

theorem acceptVisit_flows {d : Delivery} (clear : pauseTest f s = none) :
    acceptVisit f s n number d = enterFlowing (f.visited d) (d.visit number n) := by
  have same : pauseTest (f.visited d) s = none := clear
  unfold Fu.visited at same
  simp only [acceptVisit, same]
  rfl

theorem visitFrame_refused (no : deliverySender n number = false) : visitFrame f s n number = quiet f := by
  simp only [visitFrame, no, Bool.not_false, if_true]

theorem visitFrame_replies (ok : deliverySender n number = true) {r : VisitReply}
    (judged : judgeVisit f s number = (r, false)) : visitFrame f s n number = (f, [replyFrame n number r]) := by
  simp only [visitFrame, ok, judged, Bool.not_true, Bool.false_eq_true, if_false, quiet]

theorem visitFrame_accepts {d : Delivery} (ok : deliverySender n number = true) (hd : f.delivery = some d)
    (judged : judgeVisit f s number = (.accepted, true)) : visitFrame f s n number =
      ((acceptVisit f s n number d).1, replyFrame n number .accepted :: (acceptVisit f s n number d).2) := by
  simp only [visitFrame, ok, judged, hd, Bool.not_true, Bool.false_eq_true, if_false]

theorem visitEndFrame_refused (no : deliverySender n number = false) : visitEndFrame f n number = quiet f := by
  simp only [visitEndFrame, no, Bool.not_false, if_true]

theorem visitEndFrame_void (other : ∀ v, f.visit = some v → v.inProgress = false ∨ v.number ≠ number) :
    visitEndFrame f n number = quiet f := by
  unfold visitEndFrame
  split
  · rfl
  split
  next v hv =>
    refine if_neg fun ⟨going, own⟩ => ?_
    simpa [going, own] using other v hv
  · rfl

theorem visitEndFrame_ends {v : Visit} (ok : deliverySender n number = true) (hv : f.visit = some v)
    (going : v.inProgress = true) (own : v.number = number) :
    visitEndFrame f n number = endVisit f v .terminalEnd := by
  simp only [visitEndFrame, ok, hv, going, own, Bool.not_true, Bool.false_eq_true, if_false, and_self, if_true]

end

/-! ### The flow stall and pause timers (R136 to R139) -/

section
variable {f : Fu}

theorem flowStallEnd_void (no : f.flowStall = none ∨ f.visit.map (·.state) ≠ some .flowing) :
    flowStallEnd f = quiet f := by
  unfold flowStallEnd
  split
  next v _ hv runs =>
    have still : v.state ≠ .flowing := by simpa [hv, runs] using no
    exact if_neg still
  · rfl

theorem flowStallEnd_pauses {v : Visit} (runs : f.flowStall.isSome = true) (hv : f.visit = some v)
    (flowing : v.state = .flowing) : flowStallEnd f = enterPaused f v .flowStall := by
  obtain ⟨ms, running⟩ := Option.isSome_iff_exists.mp runs
  simp only [flowStallEnd, hv, running, flowing, if_true]

theorem pauseTimerEnd_void (no : f.pauseTimer = none ∨ f.visiting = false) : pauseTimerEnd f = quiet f := by
  unfold pauseTimerEnd
  split
  next v _ hv runs =>
    have ended : v.inProgress = false := not_inProgress_of_idle (no.resolve_left (by simp [runs])) hv
    simp only [ended, Bool.false_eq_true, if_false]
  · rfl

theorem pauseTimerEnd_ends {v : Visit} (runs : f.pauseTimer.isSome = true) (hv : f.visit = some v)
    (going : v.inProgress = true) : pauseTimerEnd f = endVisit f v .pauseLimit := by
  obtain ⟨ms, running⟩ := Option.isSome_iff_exists.mp runs
  simp only [pauseTimerEnd, hv, running, going, if_true]

end

/-! ### FILL KEY and HIGH LEVEL (R136, R137) -/

section
variable {f : Fu} {s : State} {v : Visit} (hv : f.visit = some v)
include hv

theorem keyChange_off_pauses (flowing : v.state = .flowing) : keyChange f s false = enterPaused f v .keyOff := by
  simp only [keyChange, hv, flowing]

/-- A key turned off replaces another cause. -/
theorem keyChange_off_replaces
    (paused : v.state = .paused .highLevel ∨ v.state = .paused .fillLimit ∨ v.state = .paused .flowStall) :
    keyChange f s false = quiet (f.recording v .keyOff) := by
  rcases paused with paused | paused | paused <;> simp only [keyChange, hv, paused, Fu.recording]

theorem keyChange_off_stays (done : (∃ c, v.state = .ended c) ∨ v.state = .paused .keyOff) :
    keyChange f s false = quiet f := by
  rcases done with ⟨c, ended⟩ | off
  · simp only [keyChange, hv, ended]
  · simp only [keyChange, hv, off]

theorem keyChange_on_clears (off : v.state = .paused .keyOff) : keyChange f s true = causeCleared f s v := by
  simp only [keyChange, hv, off]

theorem keyChange_on_stays (other : v.state ≠ .paused .keyOff) : keyChange f s true = quiet f := by
  cases state : v.state with
  | flowing | ended c => simp only [keyChange, hv, state]
  | paused c =>
      cases c with
      | keyOff => exact absurd state other
      | highLevel | fillLimit | flowStall => simp only [keyChange, hv, state]

theorem highChange_on_pauses (flowing : v.state = .flowing) : highChange f s true = enterPaused f v .highLevel := by
  simp only [highChange, hv, flowing]

theorem highChange_on_stays (other : v.state ≠ .flowing) : highChange f s true = quiet f := by
  simp only [highChange, hv]
  split
  next flowing _ => exact absurd flowing other
  next on => cases on
  · rfl

theorem highChange_off_clears (high : v.state = .paused .highLevel) :
    highChange f s false = causeCleared f s v := by
  simp only [highChange, hv, high]

theorem highChange_off_stays (other : v.state ≠ .paused .highLevel) : highChange f s false = quiet f := by
  simp only [highChange, hv]
  split
  next on => cases on
  next high _ => exact absurd high other
  · rfl

end

/-- The state with a contact's change taken: VALVE closes with FILL KEY off or HIGH LEVEL active (R9, R15). -/
def State.taken (s : State) (i : Input) (b : Bool) : State :=
  { s with fli := { s.fli with
      inputs := setInput s.fli.inputs i b
      valve := s.fli.valve && (i == .fillKey && b || i == .highLevel && !b) } }

theorem fliTake_fillKey (s : State) (b : Bool) :
    fliTake s.fli .fillKey b = ((s.taken .fillKey b).fli, [.fu (.fillKey b)]) := by
  cases b <;> rfl

theorem fliTake_highLevel (s : State) (b : Bool) :
    fliTake s.fli .highLevel b = ((s.taken .highLevel b).fli, [.fu (.highLevel b)]) := by
  cases b <;> rfl

section
variable {s : State} {held : Nat} (hp : s.phase = .running) (tank : s.cfg.tankFitted = true) (hh : 20 ≤ held)
  {b : Bool} {x : Act Fu}
include hp tank hh

theorem exec_keyChange (new : s.fli.inputs.fillKey ≠ b) (told : keyChange s.fu (s.taken .fillKey b) b = x) :
    exec (.inputChange .fillKey b held) s = .next (State.handOn { s.taken .fillKey b with fu := x.1 } 2 x.2) := by
  subst told
  have changed := exec_inputChange_of (i := .fillKey) hp hh tank new (fliTake_fillKey s b)
  rw [changed, handOn_cons _ _ _ (by decide), List.append_nil]
  rfl

theorem exec_highChange (new : s.fli.inputs.highLevel ≠ b) (told : highChange s.fu (s.taken .highLevel b) b = x) :
    exec (.inputChange .highLevel b held) s = .next (State.handOn { s.taken .highLevel b with fu := x.1 } 2 x.2) := by
  subst told
  have changed := exec_inputChange_of (i := .highLevel) hp hh tank new (fliTake_highLevel s b)
  rw [changed, handOn_cons _ _ _ (by decide), List.append_nil]
  rfl

end

/-! ### The book (R136, R137) -/

/-- A burned decilitre, and the book handed to the visit. -/
theorem fuBurn_one (f : Fu) (s : State) : (fuBurn f s 1).1 = (bookTest (burnOne f).1 s).1 := rfl

/-- A decilitre filled in a visit, and the book handed to the visit and to H. -/
theorem fuFill_one {f : Fu} {v : Visit} (hv : f.visit = some v) (going : v.inProgress = true) (s : State) :
    (fuFill f s 1).1 = (computeHours (bookTest (fillOne f s.pt.clock s.pt.clockValid v) s).1 s).1 := by
  simp only [fuFill, hv, going, if_true, andThen_fst]

section
variable {f : Fu} {s : State} {v : Visit} (hv : f.visit = some v)
include hv

theorem bookTest_flows (flowing : v.state = .flowing) (room : ¬ (s.cfg.fillLimitDl : Int) ≤ f.book) :
    bookTest f s = quiet f := by
  simp only [bookTest, hv, flowing, atLimit_iff, room, if_false]

theorem bookTest_pauses (flowing : v.state = .flowing) (full : (s.cfg.fillLimitDl : Int) ≤ f.book) :
    bookTest f s = enterPaused f v .fillLimit := by
  simp only [bookTest, hv, flowing, atLimit_iff, full, if_true]

theorem bookTest_waits (paused : v.state = .paused .fillLimit) (full : (s.cfg.fillLimitDl : Int) ≤ f.book) :
    bookTest f s = quiet f := by
  simp only [bookTest, hv, paused, atLimit_iff, full, if_true]

theorem bookTest_clears (paused : v.state = .paused .fillLimit) (room : ¬ (s.cfg.fillLimitDl : Int) ≤ f.book) :
    bookTest f s = causeCleared f s v := by
  simp only [bookTest, hv, paused, atLimit_iff, room, if_false]

theorem bookTest_stays (going : v.state ≠ .flowing) (other : v.state ≠ .paused .fillLimit) :
    bookTest f s = quiet f := by
  simp only [bookTest, hv]
  split
  next flowing => exact absurd flowing going
  next paused => exact absurd paused other
  all_goals rfl

end

/-! ### O51, clause by clause -/

/-- The state with a reply to a VISIT offered (Table 9-10). -/
def State.replied (s : State) (h : Header) (number : Nat) (code : Byte) : State :=
  s.heard.offered (terminalFrame .visitReply h.sender.toNat (beBytes 2 number ++ [code]))

section
variable {s : State} {h : Header} {p : List Byte} (ha : Accepts s h) (hl : p.length = 2)
include ha hl

theorem exec_visit_refused (no : ¬ FromTool h ∨ fieldAt p 0 2 = 0) :
    exec (.visit h p) s = .next s.heard ∧ exec (.visitEnd h p) s = .next s.heard := by
  have refused := not_deliverySender_iff.mpr no
  exact ⟨next_of_silent (exec_visit ha hl (visitFrame_refused refused)),
    next_of_silent (exec_visitEnd ha hl (visitEndFrame_refused refused))⟩

variable (tool : FromTool h) (named : fieldAt p 0 2 ≠ 0)
include tool named

/-- A VISIT that is replied to and begins nothing. -/
theorem exec_visit_replies {r : VisitReply} (judged : judgeVisit s.fu s (fieldAt p 0 2) = (r, false)) :
    exec (.visit h p) s = .next (s.replied h (fieldAt p 0 2) (BitVec.ofNat 8 r.code)) := by
  rw [exec_visit ha hl (visitFrame_replies (deliverySender_iff.mpr ⟨tool, named⟩) judged)]
  exact congrArg _ (handOn_offer _ _ (by decide))

variable {d : Delivery} (tank : s.cfg.tankFitted = true) (idle : s.fu.visiting = false)
  (hd : s.fu.delivery = some d) (own : d.number = fieldAt p 0 2)
  (room : s.fu.lots.length < 8 ∨ s.fu.carries (fieldAt p 0 2) = true)
include tank idle hd own room

/-- A VISIT accepted: the reply, and what its beginning hands on. -/
theorem exec_visit_accepts {x : Act Fu}
    (begun : acceptVisit s.fu s.heard h.sender.toNat (fieldAt p 0 2) d = x) :
    exec (.visit h p) s = .next (State.handOn { s.replied h (fieldAt p 0 2) 0 with fu := x.1 } 3 x.2) := by
  have opened : s.fu.delivery.map (·.number) = some (fieldAt p 0 2) := by rw [hd, Option.map_some, own]
  have judged : judgeVisit s.fu s.heard (fieldAt p 0 2) = (.accepted, true) := judgeVisit_accepted tank idle opened room
  rw [exec_visit ha hl (visitFrame_accepts (deliverySender_iff.mpr ⟨tool, named⟩) hd judged), begun]
  exact congrArg Host.Outcome.next (handOn_offer_cons (k := 2) _ _ (by decide))

/-- A VISIT accepted with a pause cause at hand begins PAUSED. -/
theorem exec_visit_pauses {c : PauseCause} (cause : pauseTest s.fu s = some c) : exec (.visit h p) s =
    .next { s.replied h (fieldAt p 0 2) 0 with
      fu := (s.fu.visited d).pausing (d.visit (fieldAt p 0 2) h.sender.toNat) c
      fli := { s.fli with valve := false } } :=
  (exec_visit_accepts ha hl tool named tank idle hd own room (acceptVisit_pauses cause)).trans
    (congrArg _ (handOn_enterPaused _ _ _ (by decide)))

/-- A VISIT accepted with none begins FLOWING. -/
theorem exec_visit_flows (key : s.fli.inputs.fillKey = true) (high : s.fli.inputs.highLevel = false)
    (below : ¬ (s.cfg.fillLimitDl : Int) ≤ s.fu.book) : exec (.visit h p) s =
    .next { s.replied h (fieldAt p 0 2) 0 with
      fu := (s.fu.visited d).filling (d.visit (fieldAt p 0 2) h.sender.toNat)
      fli := { s.fli with valve := s.fli.contact .fillKey && !s.fli.contact .highLevel } } :=
  (exec_visit_accepts ha hl tool named tank idle hd own room
    (acceptVisit_flows (pauseTest_clear (s := s) key high below))).trans
    (congrArg _ (handOn_enterFlowing _ _ key high tank (by decide)))

end

/-- Settles O51: VISIT by the rows of Table 7-3 and then by the pause test, the ends and timers by whether the visit
goes on, an input and the book by the state of the visit. -/
theorem visitsAreJudged : Obligations.VisitsAreJudged := by
  refine ⟨fun h p s ha hl => ⟨exec_visit_refused ha hl, fun tool named => ⟨fun noTank => ?noTank, fun tank =>
      ⟨fun v hv going => ?going, fun idle closed => ?notOpen, fun d idle hd own => ⟨fun full => ?full, fun room =>
        ⟨fun key => ?keyOff, fun key high => ?highLevel, fun key high full => ?fillLimit,
          fun key high below => ?flows⟩⟩⟩,
      fun v hv going own => ?ends, fun other => ?endsNone⟩⟩,
    fun s up => ⟨fun no => ?noStall, fun v runs hv flowing => ?stalls, fun no => ?noPause,
      fun v runs hv going => ?pauseOver⟩,
    fun s held v hp tank hh hv => ⟨fun key => ⟨fun flowing => ?keyPauses, fun paused => ?keyReplaces,
        fun done => ?keyStays⟩,
      fun key => ⟨fun other => ?onStays, fun off => ⟨fun high => ?onHigh, fun high full => ?onFull,
        fun high room => ?onFlows⟩⟩,
      fun high => ⟨fun flowing => ?highPauses, fun other => ?highStays⟩,
      fun high => ⟨fun other => ?lowStays, fun paused => ⟨fun key => ?lowKey, fun key full => ?lowFull,
        fun key room => ?lowFlows⟩⟩⟩,
    fun f s v hv => ⟨bookTest_flows hv, bookTest_pauses hv, bookTest_waits hv, fun paused room => ?bookClears,
      bookTest_stays hv, fun going => ?fills, ?burns⟩⟩
  case noTank => exact exec_visit_replies (r := .noTank) ha hl tool named (judgeVisit_noTank noTank)
  case going =>
    by_cases own : v.number = fieldAt p 0 2
    · rw [if_pos own]
      exact exec_visit_replies (r := .accepted) ha hl tool named (judgeVisit_same tank hv going own)
    · rw [if_neg own]
      exact exec_visit_replies (r := .busy) ha hl tool named (judgeVisit_busy tank hv going own)
  case notOpen => exact exec_visit_replies (r := .notOpen) ha hl tool named (judgeVisit_notOpen tank idle closed)
  case full =>
    have opened : s.fu.delivery.map (·.number) = some (fieldAt p 0 2) := by rw [hd, Option.map_some, own]
    exact exec_visit_replies (r := .full) ha hl tool named (judgeVisit_full tank idle opened full)
  case keyOff => exact exec_visit_pauses ha hl tool named tank idle hd own room (pauseTest_keyOff key)
  case highLevel => exact exec_visit_pauses ha hl tool named tank idle hd own room (pauseTest_highLevel key high)
  case fillLimit => exact exec_visit_pauses ha hl tool named tank idle hd own room (pauseTest_fillLimit key high full)
  case flows => exact exec_visit_flows ha hl tool named tank idle hd own room key high (Int.not_le.mpr below)
  case ends =>
    exact (exec_visitEnd ha hl (visitEndFrame_ends (deliverySender_iff.mpr ⟨tool, named⟩) hv going own)).trans
      (congrArg _ (handOn_endVisit _ _ _ (by decide)))
  case endsNone => exact next_of_silent (exec_visitEnd ha hl (visitEndFrame_void other))
  case noStall => exact next_of_silent (exec_flowStallExpiry up (flowStallEnd_void no))
  case stalls =>
    exact (exec_flowStallExpiry up (flowStallEnd_pauses runs hv flowing)).trans
      (congrArg _ (handOn_enterPaused _ _ _ (by decide)))
  case noPause => exact next_of_silent (exec_pauseTimerExpiry up (pauseTimerEnd_void no))
  case pauseOver =>
    exact (exec_pauseTimerExpiry up (pauseTimerEnd_ends runs hv going)).trans
      (congrArg _ (handOn_endVisit _ _ _ (by decide)))
  case keyPauses =>
    exact (exec_keyChange hp tank hh (by simp [key]) (keyChange_off_pauses hv flowing)).trans
      (congrArg _ (handOn_enterPaused _ _ _ (by decide)))
  case keyReplaces =>
    exact next_of_silent (exec_keyChange hp tank hh (by simp [key]) (keyChange_off_replaces hv paused))
  case keyStays => exact next_of_silent (exec_keyChange hp tank hh (by simp [key]) (keyChange_off_stays hv done))
  case onStays => exact next_of_silent (exec_keyChange hp tank hh (by simp [key]) (keyChange_on_stays hv other))
  case onHigh =>
    exact (exec_keyChange hp tank hh (by simp [key]) (keyChange_on_clears hv off)).trans
      (congrArg _ (handOn_causeCleared_records (pauseTest_highLevel rfl high)))
  case onFull =>
    exact (exec_keyChange hp tank hh (by simp [key]) (keyChange_on_clears hv off)).trans
      (congrArg _ (handOn_causeCleared_records (pauseTest_fillLimit rfl high full)))
  case onFlows =>
    exact (exec_keyChange hp tank hh (by simp [key]) (keyChange_on_clears hv off)).trans
      (congrArg _ (handOn_causeCleared_flows rfl high tank room (by decide)))
  case highPauses =>
    exact (exec_highChange hp tank hh (by simp [high]) (highChange_on_pauses hv flowing)).trans
      (congrArg _ (handOn_enterPaused _ _ _ (by decide)))
  case highStays => exact next_of_silent (exec_highChange hp tank hh (by simp [high]) (highChange_on_stays hv other))
  case lowStays => exact next_of_silent (exec_highChange hp tank hh (by simp [high]) (highChange_off_stays hv other))
  case lowKey =>
    exact (exec_highChange hp tank hh (by simp [high]) (highChange_off_clears hv paused)).trans
      (congrArg _ (handOn_causeCleared_records (pauseTest_keyOff key)))
  case lowFull =>
    exact (exec_highChange hp tank hh (by simp [high]) (highChange_off_clears hv paused)).trans
      (congrArg _ (handOn_causeCleared_records (pauseTest_fillLimit key rfl full)))
  case lowFlows =>
    exact (exec_highChange hp tank hh (by simp [high]) (highChange_off_clears hv paused)).trans
      (congrArg _ (handOn_causeCleared_flows key rfl tank room (by decide)))
  case bookClears =>
    rw [bookTest_clears hv paused room]
    exact ⟨fun key => causeCleared_records (pauseTest_keyOff key),
      fun key high => causeCleared_records (pauseTest_highLevel key high),
      fun key high => causeCleared_flows (pauseTest_clear key high room)⟩
  case fills => exact fuFill_one hv going { s with fu := f }
  case burns => exact fuBurn_one f { s with fu := f }

end Sys2Proof.Machine
end

section
/-! SUPPORT. The cost table, the blended rate and what a close posts (O52). -/

namespace Sys2Proof.Machine

/-! ### A COST frame (R146) -/

section
variable {b : Bu} {n v e c : Nat} {x : CostEntry}

theorem hearCost_noEnergy (noEnergy : e = 0) : hearCost b n v e c = b := if_pos (.inr (.inr noEnergy))

/-- The number and the energy with which a COST frame is taken. -/
theorem takes_cost (low : 1 ≤ n) (high : n ≤ 27) (energy : e ≠ 0) : ¬ (n < 1 ∨ 27 < n ∨ e = 0) := by omega

theorem hearCost_later (low : 1 ≤ n) (high : n ≤ 27) (energy : e ≠ 0)
    (held : b.costPeers.find? (·.station == n) = some x) (later : x.endClock < v) :
    hearCost b n v e c =
      { b with costPeers := b.costPeers.map fun y => if y.station = n then ⟨n, v, e, c, false⟩ else y } := by
  simp only [hearCost, if_neg (takes_cost low high energy), held, if_pos later, beq_iff_eq]

theorem hearCost_notLater (low : 1 ≤ n) (high : n ≤ 27) (energy : e ≠ 0)
    (held : b.costPeers.find? (·.station == n) = some x) (notLater : v ≤ x.endClock) : hearCost b n v e c = b := by
  simp only [hearCost, if_neg (takes_cost low high energy), held, if_neg (Nat.not_lt.mpr notLater)]

theorem hearCost_enters (low : 1 ≤ n) (high : n ≤ 27) (energy : e ≠ 0)
    (new : b.costPeers.find? (·.station == n) = none) (room : b.costPeers.length < 15) :
    hearCost b n v e c = { b with costPeers := b.costPeers ++ [⟨n, v, e, c, false⟩] } := by
  simp only [hearCost, if_neg (takes_cost low high energy), new, if_pos room]

theorem hearCost_full (low : 1 ≤ n) (high : n ≤ 27) (energy : e ≠ 0)
    (new : b.costPeers.find? (·.station == n) = none) (full : 15 ≤ b.costPeers.length) : hearCost b n v e c = b := by
  simp only [hearCost, if_neg (takes_cost low high energy), new, if_neg (Nat.not_lt.mpr full)]

/-- An accepted COST frame changes the cost table as `hearCost` does, and nothing else but the receiver. -/
theorem exec_costReceived {h : Header} {p : List Byte} {s : State} {b : Bu} (ha : Accepts s h) (hf : FromStation h)
    (hl : p.length = 15)
    (hm : hearCost s.bu h.sender.toNat (fieldAt p 1 4) (fieldAt p 5 5) (fieldAt p 10 5) = b) :
    exec (.costReceived h p) s = .next { s.heard with bu := b } := by
  have heard : s.run [frameOf .cost h p] = { s.heard with bu := b } := by
    rw [run_stationFrame (k := .cost) ha hf rfl (beq_iff_eq.mpr hl), frameReport, handOn_cons _ _ _ (by decide), ← hm]
    exact handOn_nil _ 2
  exact congrArg Host.Outcome.next heard

end

/-! ### The blended rate (R147) -/

/-- The peer entries a close at `v` keeps: those that ended at most two interval lengths before it. -/
def Bu.freshPeers (b : Bu) (g : Cfg) (v : Nat) : List CostEntry :=
  b.costPeers.filter fun x => !decide (x.endClock + 2 * g.intervalLen * 60 < v)

/-- Of these, those no close has taken into its sums. -/
def Bu.unusedPeers (b : Bu) (g : Cfg) (v : Nat) : List CostEntry := (b.freshPeers g v).filter fun x => !x.used

/-- ΣE of a close. -/
def Bu.energySum (b : Bu) (g : Cfg) (v : Nat) : Nat := b.interval.setE + ((b.unusedPeers g v).map (·.e)).sum

/-- ΣC of a close. -/
def Bu.costSum (b : Bu) (g : Cfg) (v : Nat) : Nat := b.interval.setC + ((b.unusedPeers g v).map (·.c)).sum

theorem blendedRate_eq (e c old : Nat) :
    blendedRate e c old = if e = 0 then old else min 999999 ((c * 100 + e / 2) / e) := by
  rw [blendedRate, clampTo_zero, Nat.min_comm]

theorem blendedRate_le {old : Nat} (h : old ≤ 999999) (e c : Nat) : blendedRate e c old ≤ 999999 := by
  rw [blendedRate_eq]
  split
  · exact h
  · exact Nat.min_le_left _ _

theorem closeRate_eq (b : Bu) (g : Cfg) (v : Nat) :
    closeRate b g v =
      ({ b with
          costOwn := some ⟨g.station, v, b.interval.setE, b.interval.setC, false⟩
          costPeers := (b.freshPeers g v).map fun x => { x with used := true }
          rate := blendedRate (b.energySum g v) (b.costSum g v) b.rate },
        decide (b.energySum g v = 0)) := by
  have kept : (b.costPeers.filter fun x => decide (v ≤ x.endClock + 2 * g.intervalLen * 60)) = b.freshPeers g v := by
    simp only [Bu.freshPeers, ← decide_not, Nat.not_lt]
  simp only [closeRate, kept, beq_eq_decide]
  rfl

/-! ### What a close posts (R151, R152, R157) -/

/-- A run of acts keeps what each of them keeps. -/
theorem foldl_andThen_keeps {α β : Type} {P : α → Prop} {f : α → β → Act α} (hf : ∀ a n, P a → P (f a n).1)
    (l : List β) {x : Act α} (hx : P x.1) : P (l.foldl (fun y n => y.andThen fun a => f a n) x).1 := by
  induction l generalizing x with
  | nil => exact hx
  | cons n l ih => exact ih (hf _ _ hx)

/-- The postings of a close keep what the posting of any feeder keeps. -/
theorem postAll_keeps {P : Bu → Prop} {k : CloseTerms} (post : ∀ b n a, P b → P (postFeeder k b n a).1) {b : Bu}
    (h : P b) (accs : Quad (Option FeederAcc)) : P (postAll k b accs).1 := by
  refine foldl_andThen_keeps (fun c n hc => ?_) FeederId.every (x := quiet b) h
  split
  · split
    · exact hc
    · exact post _ _ _ hc
  · exact hc

theorem mem_journalPut {l : List JournalEntry} {e y : JournalEntry} (h : y ∈ journalPut l e) : y ∈ l ∨ y = e := by
  unfold journalPut at h
  split at h
  · simpa using h
  · rcases List.mem_append.mp h with old | new
    · exact .inl (List.mem_of_mem_drop old)
    · exact .inr (List.mem_singleton.mp new)

/-- What stands after some postings of a close made with `k` from `b`: rate and cost table untouched, and every new
entry of the journal with the rate, the RATE HELD and the end clock of the close. -/
structure PostedFrom (k : CloseTerms) (b c : Bu) : Prop where
  rate : c.rate = b.rate
  costOwn : c.costOwn = b.costOwn
  costPeers : c.costPeers = b.costPeers
  journal : ∀ y ∈ c.journal, y ∈ b.journal ∨ (y.rate = k.rate ∧ y.rateHeld = k.held ∧ y.endClock = k.clock)

theorem PostedFrom.postFeeder {k : CloseTerms} {b c : Bu} (h : PostedFrom k b c) (n : FeederId) (a : FeederAcc) :
    PostedFrom k b (postFeeder k c n a).1 := by
  unfold Machine.postFeeder
  split
  · exact h
  · refine ⟨h.rate, h.costOwn, h.costPeers, fun y hy => ?_⟩
    rcases mem_journalPut hy with old | rfl
    · exact h.journal y old
    · exact .inr ⟨rfl, rfl, rfl⟩

theorem postAll_postedFrom (k : CloseTerms) (b : Bu) (accs : Quad (Option FeederAcc)) :
    PostedFrom k b (postAll k b accs).1 :=
  postAll_keeps (fun _ n a h => h.postFeeder n a) ⟨rfl, rfl, rfl, fun _ hy => .inl hy⟩ accs

/-- A close posts from the state that `closeRate` leaves, and then opens the next interval (R152). -/
theorem closeInterval_postedFrom (b : Bu) (s : State) (v : Nat) :
    ∃ (k : CloseTerms) (c : Bu),
      (closeInterval b s v).1 = { c with interval := openInterval s.cfg v } ∧ PostedFrom k (closeRate b s.cfg v).1 c ∧
        k.rate = (closeRate b s.cfg v).1.rate ∧ k.held = (closeRate b s.cfg v).2 ∧ k.clock = v :=
  ⟨_, _, rfl, postAll_postedFrom _ _ _, rfl, rfl, rfl⟩

/-- A new rate is handed to the SR (R161). -/
theorem closeInterval_touchesRate {b : Bu} {s : State} {v : Nat} (h : (closeRate b s.cfg v).1.rate ≠ b.rate) :
    .sr (.touch .rate) ∈ (closeInterval b s v).2 := by
  simp [closeInterval, h]

/-- Settles O52: a COST frame by what it finds in the table, a close by `closeRate`, whose rate its postings carry. -/
theorem costsMakeTheRate : Obligations.CostsMakeTheRate := by
  refine ⟨fun h p s ha hf hl => ?frame, fun b s v => ?close, rfl⟩
  case frame =>
    obtain ⟨-, low, high⟩ := id hf
    refine ⟨fun noEnergy => ?_, fun x energy held later => ?_, fun x energy held notLater => ?_,
      fun energy new room => ?_, fun energy new full => ?_⟩
    · exact exec_costReceived ha hf hl (hearCost_noEnergy noEnergy)
    · exact exec_costReceived ha hf hl (hearCost_later low high energy held later)
    · exact exec_costReceived ha hf hl (hearCost_notLater low high energy held notLater)
    · exact exec_costReceived ha hf hl (hearCost_enters low high energy new room)
    · exact exec_costReceived ha hf hl (hearCost_full low high energy new full)
  case close =>
    have rate : (closeRate b s.cfg v).1.rate =
        if b.energySum s.cfg v = 0 then b.rate
        else min 999999 ((b.costSum s.cfg v * 100 + b.energySum s.cfg v / 2) / b.energySum s.cfg v) := by
      rw [closeRate_eq, blendedRate_eq]
    obtain ⟨k, c, closed, posted, kRate, kHeld, kClock⟩ := closeInterval_postedFrom b s v
    intro kept unused energy cost newRate after
    have opened : after = { c with interval := openInterval s.cfg v } := closed
    refine ⟨?_, ?_, ?_, ?_, fun changed => ?_, fun y hy => ?_⟩
    · rw [opened]
      exact posted.costOwn.trans (by rw [closeRate_eq])
    · rw [opened]
      exact posted.costPeers.trans (by rw [closeRate_eq]; rfl)
    · rw [opened]
      exact posted.rate.trans rate
    · rw [opened]
    · exact closeInterval_touchesRate (rate.trans_ne changed)
    · rw [opened] at hy
      rcases posted.journal y hy with old | ⟨yRate, yHeld, yClock⟩
      · rw [closeRate_eq] at old
        exact .inl old
      · refine .inr ⟨yRate.trans (kRate.trans rate), yHeld.trans (kHeld.trans ?_), yClock.trans kClock⟩
        rw [closeRate_eq]
        rfl

end Sys2Proof.Machine
end

section
/-! SUPPORT. The accounts are sound after every step (O59). -/

namespace Sys2Proof.Machine

/-! ### An account slot (R151, R153, R154, R156) -/

theorem free_slotSound : SlotSound .free := ⟨by decide, by decide⟩

theorem opened_slotSound (c : Nat) (reopened : Bool) : SlotSound (Slot.opened c reopened) := free_slotSound

theorem SlotSound.post {x : Slot} (h : SlotSound x) (p e t u clock : Nat) : SlotSound (x.post p e t u clock) := by
  obtain ⟨-, statements⟩ := h
  exact ⟨post_carry_lt x p e t u clock, statements⟩

theorem SlotSound.close {x : Slot} (h : SlotSound x) (st : Statement) : SlotSound (x.close st) := by
  obtain ⟨carry, statements⟩ := h
  refine ⟨carry, ?_⟩
  rw [close_statements_length st statements]
  exact Nat.min_le_left _ _

theorem SlotSound.restate {x : Slot} (h : SlotSound x) (g : Cfg) : SlotSound (x.restate g) := h

/-! ### The slots of the BU -/

/-- Eight account slots, each sound. -/
def SlotsSound (l : List Slot) : Prop := l.length = 8 ∧ ∀ x ∈ l, SlotSound x

section
variable {l : List Slot}

theorem SlotsSound.set (h : SlotsSound l) {x : Slot} (hx : SlotSound x) (i : Nat) : SlotsSound (l.set i x) := by
  obtain ⟨eight, sound⟩ := h
  refine ⟨List.length_set.trans eight, fun y hy => ?_⟩
  rcases List.mem_or_eq_of_mem_set hy with old | rfl
  · exact sound y old
  · exact hx

theorem SlotsSound.getD (h : SlotsSound l) (i : Nat) : SlotSound (l.getD i .free) := by
  obtain ⟨-, sound⟩ := h
  rw [List.getD_eq_getElem?_getD]
  cases hx : l[i]? with
  | none => exact free_slotSound
  | some x => exact sound x (List.mem_of_getElem? hx)

theorem SlotsSound.restate (h : SlotsSound l) (g : Cfg) : SlotsSound (l.map (Slot.restate g)) := by
  obtain ⟨eight, sound⟩ := h
  refine ⟨(List.length_map _).trans eight, fun y hy => ?_⟩
  obtain ⟨x, hx, rfl⟩ := List.mem_map.mp hy
  exact (sound x hx).restate g

/-- The slot found for a code is one of the slots, or a free or dormant one opened anew for it (R154). -/
theorem findSlot_cases {c i : Nat} {x : Slot} (h : findSlot l c = some (i, x)) :
    x ∈ l ∨ ∃ reopened, x = Slot.opened c reopened := by
  unfold findSlot at h
  split at h
  next j _ =>
    obtain ⟨y, hy, e⟩ := Option.map_eq_some_iff.mp h
    exact .inl ((Prod.mk.inj e).2 ▸ List.mem_of_getElem? hy)
  next =>
    refine .inr ?_
    split at h
    · cases h; exact ⟨true, rfl⟩
    split at h
    · cases h; exact ⟨false, rfl⟩
    · obtain ⟨j, -, e⟩ := Option.map_eq_some_iff.mp h
      exact ⟨false, (Prod.mk.inj e).2.symm⟩

theorem SlotsSound.found (h : SlotsSound l) {c i : Nat} {x : Slot} (hf : findSlot l c = some (i, x)) : SlotSound x := by
  obtain ⟨-, sound⟩ := h
  rcases findSlot_cases hf with held | ⟨reopened, rfl⟩
  · exact sound x held
  · exact opened_slotSound c reopened

end

/-! ### The BU's acts -/

theorem journalPut_length {l : List JournalEntry} (h : l.length ≤ 32) (e : JournalEntry) :
    (journalPut l e).length ≤ 32 := by
  unfold journalPut
  split <;> simp only [List.length_append, List.length_drop, List.length_singleton] <;> omega

/-- What `AccountsSound` says of the BU. -/
structure Bu.Sound (b : Bu) : Prop where
  slots : SlotsSound b.slots
  rate : b.rate ≤ 999999
  journal : b.journal.length ≤ 32
  costPeers : b.costPeers.length ≤ 15

theorem start_buSound : Bu.start.Sound where
  slots := ⟨rfl, fun _ hx => List.eq_of_mem_replicate hx ▸ free_slotSound⟩
  rate := Nat.zero_le _
  journal := Nat.zero_le _
  costPeers := Nat.zero_le _

namespace Bu.Sound

variable {b : Bu}

/-- It says nothing of the open interval, the own cost entry, the posting number and the totals held. -/
theorem of_same (h : b.Sound) {c : Bu} (slots : c.slots = b.slots) (rate : c.rate = b.rate)
    (journal : c.journal = b.journal) (costPeers : c.costPeers = b.costPeers) : c.Sound where
  slots := slots ▸ h.slots
  rate := rate ▸ h.rate
  journal := journal ▸ h.journal
  costPeers := costPeers ▸ h.costPeers

theorem withSlots (h : b.Sound) {l : List Slot} (hl : SlotsSound l) : Sound { b with slots := l } :=
  { h with slots := hl }

theorem withInterval (h : b.Sound) (i : Interval) : (withInterval b i).1.Sound := h.of_same rfl rfl rfl rfl

theorem bookUnit (h : b.Sound) (i : Interval) (rest : Nat) (next : Nat → BuMsg) : (bookUnit b i rest next).1.Sound :=
  h.withInterval i

theorem bookSet (h : b.Sound) (k : Nat) : (bookSet b k).1.Sound := by
  cases k with
  | zero => exact h
  | succ k => exact h.bookUnit ..

theorem bookFeeder (h : b.Sound) (n : FeederId) (k : Nat) : (bookFeeder b n k).1.Sound := by
  cases k with
  | zero => exact h
  | succ k => exact h.bookUnit ..

theorem hearCost (h : b.Sound) (station v e c : Nat) : (hearCost b station v e c).Sound := by
  unfold Machine.hearCost
  dsimp only
  split
  · exact h
  split
  · split
    · exact { h with costPeers := (List.length_map _).trans_le h.costPeers }
    · exact h
  · split
    next room => exact { h with costPeers := by rw [List.length_append]; exact room }
    · exact h

theorem closeRate (h : b.Sound) (g : Cfg) (v : Nat) : (closeRate b g v).1.Sound := by
  rw [closeRate_eq]
  refine { h with rate := blendedRate_le h.rate _ _, costPeers := ?_ }
  exact (List.length_map _).trans_le ((List.length_filter_le _ _).trans h.costPeers)

theorem postFeeder (h : b.Sound) (k : CloseTerms) (n : FeederId) (a : FeederAcc) : (postFeeder k b n a).1.Sound := by
  unfold Machine.postFeeder
  split
  · exact h
  next i x found =>
    exact { h with
      slots := h.slots.set ((h.slots.found found).post ..) i
      journal := journalPut_length h.journal _ }

theorem postAll (h : b.Sound) (k : CloseTerms) (accs : Quad (Option FeederAcc)) : (postAll k b accs).1.Sound :=
  postAll_keeps (fun _ n a hb => hb.postFeeder k n a) h accs

theorem closeInterval (h : b.Sound) (s : State) (v : Nat) : (closeInterval b s v).1.Sound :=
  ((h.closeRate s.cfg v).postAll _ _).of_same rfl rfl rfl rfl

theorem clockChange (h : b.Sound) (s : State) (c : ClockChange) : (clockChange b s c).1.Sound := by
  unfold Machine.clockChange
  split
  · split
    · exact h.withInterval _
    · exact h
  · split
    · exact h.closeInterval s _
    · exact h
  · split
    · split
      · exact h.closeInterval s _
      · exact h
    · exact h

theorem statementClose (h : b.Sound) (s : State) (ask : Ask) (c : Nat) : (statementClose b s ask c).1.Sound := by
  unfold Machine.statementClose
  split
  · exact h
  split
  · exact h
  next i _ => exact h.withSlots (h.slots.set ((h.slots.getD i).close _) i)

theorem mapCode (h : b.Sound) (g : Cfg) (n : FeederId) : (mapCode g b n).1.Sound := by
  unfold Machine.mapCode
  dsimp only
  split
  · exact h
  split
  next i x found => exact h.withSlots (h.slots.set (h.slots.found found) i)
  · exact h

theorem mapAccounts (h : b.Sound) (g : Cfg) : (mapAccounts b g).1.Sound :=
  foldl_andThen_keeps (fun _ n hb => hb.mapCode g n) FeederId.every (h.withSlots (h.slots.restate g))

end Bu.Sound

theorem buHandle_sound (m : BuMsg) (s : State) (h : s.bu.Sound) : (buHandle m s).1.Sound := by
  cases m with
  | seTotal t => exact h.of_same rfl rfl rfl rfl
  | fTotal n t => exact h.of_same rfl rfl rfl rfl
  | seUnits k => exact h.bookSet k
  | fUnits n k => exact h.bookFeeder n k
  | cost p => exact h.withInterval _
  | lotChange x y => exact h.withInterval _
  | energised n => exact h.withInterval _
  | secondMark => exact h.withInterval _
  | clock c => exact h.clockChange s c
  | costFrame n v e c => exact h.hearCost n v e c
  | statementClose ask c => exact h.statementClose s ask c
  | accountQuery ask c => exact h
  | statementQuery ask c => exact h
  | journalQuery ask n => exact h

/-! ### The records of the accounts (R161, R180, R181) -/

/-- Eight records of account slots, each of sound contents. -/
def SlotRecsSound (l : List (Rec Slot)) : Prop := l.length = 8 ∧ ∀ r ∈ l, r.Holds SlotSound

section
variable {l : List (Rec Slot)}

/-- One slot's record acted on, with the slot's present contents. -/
theorem SlotRecsSound.onSlots (h : SlotRecsSound l) {slots : List Slot} (hs : SlotsSound slots)
    {f : Rec Slot → Slot → Rec Slot} (hf : ∀ r x, r.Holds SlotSound → SlotSound x → (f r x).Holds SlotSound) (i : Nat) :
    SlotRecsSound (onSlots l slots i f) := by
  unfold Machine.onSlots
  split
  next r hr =>
    obtain ⟨eight, sound⟩ := h
    refine ⟨List.length_set.trans eight, fun y hy => ?_⟩
    rcases List.mem_or_eq_of_mem_set hy with old | rfl
    · exact sound y old
    · exact hf r _ (sound r (List.mem_of_getElem? hr)) (hs.getD i)
  · exact h

theorem SlotRecsSound.finish (h : SlotRecsSound l) {slots : List Slot} (hs : SlotsSound slots) :
    SlotRecsSound (l.mapIdx fun i r => r.finish (slots.getD i .free)) := by
  obtain ⟨eight, sound⟩ := h
  refine ⟨List.length_mapIdx.trans eight, fun y hy => ?_⟩
  obtain ⟨i, hi, rfl⟩ := List.mem_mapIdx.mp hy
  exact (sound _ (List.getElem_mem hi)).finish (hs.getD i)

theorem SlotRecsSound.cut (h : SlotRecsSound l) : SlotRecsSound (l.map Rec.cut) := by
  obtain ⟨eight, sound⟩ := h
  refine ⟨(List.length_map _).trans eight, fun y hy => ?_⟩
  obtain ⟨r, hr, rfl⟩ := List.mem_map.mp hy
  exact (sound r hr).cut

/-- A record that is absent or damaged reads as a free slot (Table 10-4). -/
theorem SlotRecsSound.read (h : SlotRecsSound l) : SlotsSound (l.map readSlot) := by
  obtain ⟨eight, sound⟩ := h
  refine ⟨(List.length_map _).trans eight, fun y hy => ?_⟩
  obtain ⟨r, hr, rfl⟩ := List.mem_map.mp hy
  exact (sound r hr).read free_slotSound

end

/-- What `AccountsSound` says of the store. -/
structure Store.AccountsSound (t : Store) : Prop where
  slots : SlotRecsSound t.slots
  rate : t.rate.Holds (· ≤ 999999)
  journal : t.journal.Holds (·.length ≤ 32)

theorem accountsSound_iff (s : State) : AccountsSound s ↔ s.bu.Sound ∧ s.store.AccountsSound := by
  constructor
  · rintro ⟨eight, eightRecs, sound, soundRecs, rate, rateRec, journal, journalRec, peers⟩
    exact ⟨⟨⟨eight, sound⟩, rate, journal, peers⟩, ⟨⟨eightRecs, soundRecs⟩, rateRec, journalRec⟩⟩
  · rintro ⟨⟨⟨eight, sound⟩, rate, journal, peers⟩, ⟨⟨eightRecs, soundRecs⟩, rateRec, journalRec⟩⟩
    exact ⟨eight, eightRecs, sound, soundRecs, rate, rateRec, journal, journalRec, peers⟩

namespace Store.AccountsSound

variable {t : Store}

theorem touch (h : t.AccountsSound) {s : State} (bu : s.bu.Sound) (r : RecordId) : (t.touch s r).AccountsSound := by
  cases r with
  | rate => exact { h with rate := h.rate.touch bu.rate }
  | slot i => exact { h with slots := h.slots.onSlots bu.slots (fun _ _ hr hx => hr.touch hx) i }
  | journal => exact { h with journal := h.journal.touch bu.journal }
  | _ => exact ⟨h.slots, h.rate, h.journal⟩

theorem written (h : t.AccountsSound) {s : State} (bu : s.bu.Sound) (r : RecordId) : (t.written s r).AccountsSound := by
  cases r with
  | rate => exact { h with rate := h.rate.written bu.rate }
  | slot i => exact { h with slots := h.slots.onSlots bu.slots (fun _ _ hr hx => hr.written hx) i }
  | journal => exact { h with journal := h.journal.written bu.journal }
  | _ => exact ⟨h.slots, h.rate, h.journal⟩

theorem finish (h : t.AccountsSound) {s : State} (bu : s.bu.Sound) : (t.finish s).AccountsSound where
  slots := h.slots.finish bu.slots
  rate := h.rate.finish bu.rate
  journal := h.journal.finish bu.journal

theorem cut (h : t.AccountsSound) : t.cut.AccountsSound where
  slots := h.slots.cut
  rate := h.rate.cut
  journal := h.journal.cut

theorem readJournal (h : t.AccountsSound) : t.readJournal.length ≤ 32 := by
  unfold Store.readJournal
  split
  · exact h.journal.read (Nat.zero_le _)
  all_goals exact Nat.zero_le _

end Store.AccountsSound

theorem srHandle_accountsSound (m : SrMsg) (s : State) (bu : s.bu.Sound) (h : s.store.AccountsSound) :
    (srHandle m s).1.AccountsSound := by
  cases m with
  | touch r => exact h.touch bu r
  | written r => exact h.written bu r

/-! ### The accounts through every step -/

/-- The interval found open is closed, the accounts are mapped, a new interval opens: each on what the store holds
(R154, R155). -/
theorem buBringUp_sound {s : State} (h : s.store.AccountsSound) : (buBringUp s).1.Sound := by
  have read : Bu.Sound
      { Bu.start with
        rate := s.store.rate.read 0, slots := s.store.slots.map readSlot, journal := s.store.readJournal
        postingNumber := s.store.postingNumber.read 0 } :=
    ⟨h.slots.read, h.rate.read (Nat.zero_le _), h.readJournal, Nat.zero_le _⟩
  unfold buBringUp
  dsimp only [andThen_fst]
  refine Bu.Sound.of_same (Bu.Sound.mapAccounts ?_ s.cfg) rfl rfl rfl rfl
  split
  · exact read.postAll _ _
  · exact read

theorem deliver_accountsSound (r : Report) (s : State) (h : AccountsSound s) : AccountsSound (deliver r s).1 := by
  obtain ⟨bu, store⟩ := (accountsSound_iff s).mp h
  cases r with
  | bu m => exact (accountsSound_iff _).mpr ⟨buHandle_sound m s bu, store⟩
  | sr m => exact (accountsSound_iff _).mpr ⟨bu, srHandle_accountsSound m s bu store⟩
  | _ => exact h

theorem accountsSound_invariant : BooksInvariant AccountsSound where
  told := deliver_accountsSound
  fresh s p h := by
    obtain ⟨-, store⟩ := (accountsSound_iff s).mp h
    exact (accountsSound_iff _).mpr ⟨start_buSound, store⟩
  cut s h := by
    obtain ⟨-, store⟩ := (accountsSound_iff s).mp h
    exact (accountsSound_iff _).mpr ⟨start_buSound, store.cut⟩
  finished s h := by
    obtain ⟨bu, store⟩ := (accountsSound_iff s).mp h
    exact (accountsSound_iff _).mpr ⟨bu, store.finish bu⟩
  broughtUp s h := by
    obtain ⟨-, store⟩ := (accountsSound_iff s).mp h
    exact (accountsSound_iff _).mpr ⟨buBringUp_sound store, store⟩
  same s t _ bu store h := by
    rw [accountsSound_iff, bu, store]
    exact (accountsSound_iff s).mp h

/-- Settles O59: the accounts and their records are kept sound by every report, and a start brings up what the store
holds. -/
theorem stepsKeepTheAccountsSound : Obligations.StepsKeepTheAccountsSound := fun _ _ h =>
  accountsSound_invariant.of_step h

end Sys2Proof.Machine
end
section
/-! SUPPORT. What reaches the LC, and the end of a received frame case by case (O20). -/

namespace Sys2Proof.Machine

/-! ### A report to the LC -/

section
variable {s : State} {m : LcMsg} {l : Lc} {rs : List Report}

/-- A command that reaches the LC: it takes the report, and what it reports is handed on. -/
theorem run_lc (up : s.isUp = true) (told : lcHandle m s = (l, rs)) :
    s.run [.lc m] = State.handOn { s with lc := l } 1 rs := by
  rw [run_one up, deliver_lc, told]

theorem run_lc_quiet (up : s.isUp = true) (told : lcHandle m s = quiet l) : s.run [.lc m] = { s with lc := l } := by
  rw [run_lc up told, handOn_nil]

end

/-! ### The tests of R166 -/

theorem senderTest_iff {h : Header} {k : Kind} :
    senderTest h k = true ↔ (k.stationKind = true → FromStation h) := by
  simp [senderTest, FromStation, Bool.or_eq_true, imp_iff_not_or, and_assoc]

theorem lengthTest_iff {k : Kind} {p : List Byte} :
    lengthTest k p = true ↔ ∀ n, k.fixedLength = some n → p.length = n := by
  unfold lengthTest
  cases k.fixedLength <;> simp

section
variable {l : Lc} {s : State} {h : Header} {k : Kind} {p : List Byte}

theorem dispatchFrame_discarded (fails : senderTest h k = false ∨ lengthTest k p = false) :
    dispatchFrame l s h (BitVec.ofNat 8 k.code) p = quiet l := by
  have refused : (k.notTaken || !senderTest h k || !lengthTest k p) = true := by
    rcases fails with fails | fails <;> simp [fails]
  simp only [dispatchFrame, Kind.ofCode?_code, refused, if_true]

theorem dispatchFrame_handed (taken : k.notTaken = false) (noTool : k ≠ .toolCommand)
    (sender : senderTest h k = true) (length : lengthTest k p = true) :
    dispatchFrame l s h (BitVec.ofNat 8 k.code) p = (l, frameReport h k p) := by
  simp only [dispatchFrame, Kind.ofCode?_code, taken, sender, length, noTool, Bool.not_true, Bool.or_self,
    Bool.false_eq_true, if_false]

end

/-! ### The end of a frame (R165) -/

theorem readsBack_iff {r : Rx} {sender station : Nat} :
    r.readsBack sender station = true ↔ r.own = true ∧ (r.whole = false ∨ sender = station) := by
  simp [Rx.readsBack]

section
variable {s : State} {h : Header} (kind : Byte) (p : List Byte)

theorem frameEnd_readback (enabled : s.lc.enabled = true)
    (back : s.lc.rx.readsBack h.sender.toNat s.cfg.station = true) :
    frameEnd s.lc s h kind p = quiet (if s.lc.sending then s.lc else s.heard.lc) := by
  simp only [frameEnd, enabled, back, Bool.not_true, Bool.false_eq_true, if_false, if_true, State.heard]

theorem frameEnd_elsewhere (enabled : s.lc.enabled = true)
    (other : s.lc.rx.readsBack h.sender.toNat s.cfg.station = false) (elsewhere : addressed s h = false) :
    frameEnd s.lc s h kind p = quiet s.heard.lc := by
  simp only [frameEnd, enabled, other, elsewhere, Bool.not_true, Bool.not_false, Bool.false_eq_true, if_false, if_true,
    State.heard]

theorem frameEnd_ownNumber (enabled : s.lc.enabled = true)
    (other : s.lc.rx.readsBack h.sender.toNat s.cfg.station = false) (here : addressed s h = true)
    (own : h.sender.toNat = s.cfg.station) :
    frameEnd s.lc s h kind p = setDuplicate s.heard.lc s.cfg.station := by
  rw [own] at other
  simp only [frameEnd, enabled, other, here, own, Bool.not_true, Bool.false_eq_true, if_false, if_true, State.heard]

end

/-! ### DUPLICATE (R36, R37) -/

theorem setDuplicate_again {l : Lc} (station : Nat) (h : l.duplicate = true) : setDuplicate l station = quiet l :=
  if_pos h

/-- DUPLICATE set: the DU is told, of the queue only STATE stays, and the answer buffer is empty. -/
theorem setDuplicate_first {l : Lc} (station : Nat) (h : l.duplicate = false) :
    ∃ m : Lc, setDuplicate l station = (m, [.du .duplicate]) ∧ m.duplicate = true ∧
      m.queue = l.queue.filter (·.kind == .state) ∧ m.answer = none :=
  ⟨_, if_neg (ne_true_of_eq_false h), rfl, rfl, rfl⟩

/-! ### The command of a frame -/

section
variable {k : Kind} {h : Header} {p : List Byte} {c : Instr}

/-- The row of a kind is the end of a frame of that kind. -/
theorem exec_frameCommand (row : frameCommand k h p = some c) (s : State) :
    exec c s = .next (s.run [frameOf k h p]) := by
  cases k with
  | fillClaim | visitReply | fillDone | toolCommand | answer => cases row
  | _ => cases row; rfl

theorem taken_of_frameCommand (row : frameCommand k h p = some c) : k.notTaken = false ∧ k ≠ .toolCommand := by
  cases k with
  | fillClaim | visitReply | fillDone | toolCommand | answer => cases row
  | _ => exact ⟨rfl, nofun⟩

variable {s : State} {l : Lc} {rs : List Report}

/-- A frame's command, by what the LC makes of the frame's end. -/
theorem exec_frame (row : frameCommand k h p = some c) (up : s.isUp = true)
    (ended : frameEnd s.lc s h (BitVec.ofNat 8 k.code) p = (l, rs)) :
    exec c s = .next (State.handOn { s with lc := l } 1 rs) :=
  (exec_frameCommand row s).trans (congrArg _ (run_lc up ended))

theorem exec_frame_quiet (row : frameCommand k h p = some c) (up : s.isUp = true)
    (ended : frameEnd s.lc s h (BitVec.ofNat 8 k.code) p = quiet l) : exec c s = .next { s with lc := l } :=
  next_of_silent (exec_frame row up ended)

end

/-- Settles O20: the end of a frame falls into the cases of R165, and an accepted frame into those of R166. -/
theorem framesAreTestedAndDispatched : Obligations.FramesAreTestedAndDispatched := by
  intro k h p c s row up enabled readback
  refine ⟨fun back sending => ?_, fun back still => ?_, fun own whole => readsBack_iff.mpr ⟨own, whole⟩,
    fun foreign => ?_, fun other elsewhere => exec_frame_quiet row up (frameEnd_elsewhere _ p enabled other elsewhere),
    fun other here own again => ?_, fun other here own first => ?_, fun ha fails => ?_, fun ha sender length => ?_⟩
  · exact exec_frame_quiet row up
      ((frameEnd_readback _ p enabled back).trans (congrArg quiet (if_pos sending)))
  · exact exec_frame_quiet row up
      ((frameEnd_readback _ p enabled back).trans (congrArg quiet (if_neg (ne_true_of_eq_false still))))
  · refine Bool.eq_false_iff.mpr fun back => ?_
    obtain ⟨own, whole⟩ := readsBack_iff.mp back
    rcases foreign with undriven | ⟨sent, sender⟩
    · exact absurd own (ne_true_of_eq_false undriven)
    · exact whole.elim (fun unsent => absurd sent (ne_true_of_eq_false unsent)) sender
  · exact exec_frame_quiet row up
      ((frameEnd_ownNumber _ p enabled other here own).trans (setDuplicate_again (l := s.heard.lc) _ again))
  · obtain ⟨l, set, kept⟩ := setDuplicate_first (l := s.heard.lc) s.cfg.station first
    exact ⟨l, exec_frame row up ((frameEnd_ownNumber _ p enabled other here own).trans set), kept⟩
  · refine exec_frame_quiet row up ((frameEnd_of_accepts ha _ p).trans (dispatchFrame_discarded ?_))
    rcases fails with ⟨station, outside⟩ | ⟨n, fixed, wrong⟩
    · exact .inl (Bool.eq_false_iff.mpr fun passed => outside (senderTest_iff.mp passed station))
    · exact .inr (Bool.eq_false_iff.mpr fun passed => wrong (lengthTest_iff.mp passed n fixed))
  · obtain ⟨taken, noTool⟩ := taken_of_frameCommand row
    exact exec_frame row up ((frameEnd_of_accepts ha _ p).trans
      (dispatchFrame_handed taken noTool (senderTest_iff.mpr sender) (lengthTest_iff.mpr length)))

end Sys2Proof.Machine
end

section
/-! SUPPORT. A frame offered to the queue, and the parts of an answer (R168, R172), lemma by lemma. -/

namespace Sys2Proof.Machine

/-! ### A waiting STATE replaced in its place (R168) -/

theorem replaceState_none (f : TxFrame) {q : List TxFrame} (h : ∀ x ∈ q, x.kind ≠ .state) :
    replaceState f q = none := by
  induction q with
  | nil => rfl
  | cons x q ih =>
      obtain ⟨head, rest⟩ := List.forall_mem_cons.mp h
      rw [replaceState, if_neg head, ih rest, Option.map_none]

theorem replaceState_first (f : TxFrame) {a : List TxFrame} {x : TxFrame} (b : List TxFrame)
    (h : ∀ y ∈ a, y.kind ≠ .state) (hx : x.kind = .state) : replaceState f (a ++ x :: b) = some (a ++ f :: b) := by
  induction a with
  | nil => exact if_pos hx
  | cons y a ih =>
      obtain ⟨head, rest⟩ := List.forall_mem_cons.mp h
      rw [List.cons_append, replaceState, if_neg head, ih rest, Option.map_some, List.cons_append]

/-- A head under transmission stays in front, and the frames behind it are looked through. -/
theorem replaceWaiting_eq (f : TxFrame) (sending : Bool) (q : List TxFrame) : replaceWaiting f sending q =
    (replaceState f (if sending then q.drop 1 else q)).map ((if sending then q.take 1 else []) ++ ·) := by
  cases sending with
  | false => exact Option.map_id_apply.symm
  | true => cases q <;> rfl

/-! ### A frame offered -/

section
variable {l : Lc} {g : TxFrame} (n : Nat)

theorem offerFrame_refused (h : l.enabled = false ∨ (l.duplicate = true ∧ g.kind ≠ .state)) :
    offerFrame l n g = (l, false) := by
  rcases h with off | ⟨own, other⟩
  · simp only [offerFrame, off, Bool.not_false, if_true]
  · have barred : (l.duplicate && g.kind != .state) = true := by simp [own, other]
    simp only [offerFrame, barred, if_true, ite_self]

/-- A frame that replaces none goes behind the others; a full queue discards it. -/
theorem offerFrame_behind (enabled : l.enabled = true) (free : l.duplicate = false ∨ g.kind = .state)
    (new : g.kind = .state → replaceWaiting { g with attempts := 0 } l.sending l.queue = none) :
    offerFrame l n g = if l.queue.length < 8
      then (kick { l with queue := l.queue ++ [{ g with attempts := 0 }] } n, true) else (l, false) := by
  have allowed : (l.duplicate && g.kind != .state) = false := by
    rcases free with free | free <;> simp [free]
  have nowhere :
      (if g.kind = .state then replaceWaiting { g with attempts := 0 } l.sending l.queue else none) = none := by
    split
    next state => exact new state
    · rfl
  simp only [offerFrame, enabled, allowed, nowhere, Bool.not_true, Bool.false_eq_true, if_false]

theorem offerFrame_replaced {q : List TxFrame} (enabled : l.enabled = true) (state : g.kind = .state)
    (old : replaceWaiting { g with attempts := 0 } l.sending l.queue = some q) :
    offerFrame l n g = (kick { l with queue := q } n, true) := by
  have allowed : (l.duplicate && g.kind != .state) = false := by simp [state]
  have found : (if g.kind = .state then replaceWaiting { g with attempts := 0 } l.sending l.queue else none) = some q :=
    (if_pos state).trans old
  simp only [offerFrame, enabled, allowed, found, Bool.not_true, Bool.false_eq_true, if_false]

/-- A frame that is no STATE finds a place unless DUPLICATE is set or the queue is full. -/
theorem offerFrame_snd (enabled : l.enabled = true) (other : g.kind ≠ .state) :
    (offerFrame l n g).2 = (!l.duplicate && decide (l.queue.length < 8)) := by
  cases duplicate : l.duplicate with
  | true => rw [offerFrame_refused n (.inr ⟨duplicate, other⟩), Bool.not_true, Bool.false_and]
  | false =>
      rw [offerFrame_behind n enabled (.inl duplicate) fun state => absurd state other, Bool.not_false, Bool.true_and]
      split
      next room => exact (decide_eq_true room).symm
      next full => exact (decide_eq_false full).symm

/-- A frame not taken leaves the LC as it is. -/
theorem offerFrame_of_not_taken (h : (offerFrame l n g).2 = false) : offerFrame l n g = (l, false) := by
  revert h
  unfold offerFrame
  dsimp only
  (repeat' split) <;> simp

end

/-! ### The parts of an answer (R172) -/

theorem partCount_pos (d : List Byte) : 1 ≤ partCount d := by
  unfold partCount partSize
  split
  · exact Nat.le_refl 1
  next full =>
    have := List.length_pos_iff.mpr full
    omega

theorem length_le_partCount (d : List Byte) : d.length ≤ 43 * partCount d := by
  unfold partCount partSize
  split
  next empty => simp [empty]
  · omega

/-- No part but a single empty one is without data. -/
theorem partCount_lt {d : List Byte} (h : d ≠ []) : 43 * partCount d < d.length + 43 := by
  rw [partCount, if_neg h, partSize]
  omega

section
variable {l : Lc} {a : Answer} (n : Nat)

theorem offerPart_last (h : partCount a.data ≤ a.next) : offerPart l n a = ({ l with answer := none }, false) :=
  if_neg (Nat.not_lt.mpr h)

theorem offerPart_taken (more : a.next < partCount a.data) (taken : (offerFrame l n (answerFrame a a.next)).2 = true) :
    offerPart l n a =
      ({ (offerFrame l n (answerFrame a a.next)).1 with answer := some { a with next := a.next + 1 } }, true) :=
  (if_pos more).trans (if_pos taken)

theorem offerPart_refused (more : a.next < partCount a.data)
    (refused : (offerFrame l n (answerFrame a a.next)).2 = false) :
    offerPart l n a = ({ l with answer := none }, false) := by
  have kept := offerFrame_of_not_taken n refused
  simp only [offerPart, more, kept, if_true, Bool.false_eq_true, if_false]

/-- The next part is taken as its frame is. -/
theorem offerPart_snd (more : a.next < partCount a.data) :
    (offerPart l n a).2 = (offerFrame l n (answerFrame a a.next)).2 := by
  cases taken : (offerFrame l n (answerFrame a a.next)).2 with
  | true => rw [offerPart_taken n more taken]
  | false => rw [offerPart_refused n more taken]

variable (ask : Ask) (r : Result) (data : List Byte)

/-- Part 0 of an answer finds a place unless DUPLICATE is set or the queue is full. -/
theorem giveAnswer_snd (enabled : l.enabled = true) :
    (giveAnswer l n ask r data).2 = (!l.duplicate && decide (l.queue.length < 8)) :=
  (offerPart_snd (l := { l with answerSeq := l.answerSeq + 1 })
    (a := ⟨l.answerSeq, ask, r, if r = .done then data else [], 0⟩) n (partCount_pos _)).trans
    (offerFrame_snd n enabled nofun)

end

/-! ### A frame has left the queue (R172, R173) -/

section
variable {l : Lc} {f : TxFrame} (n : Nat)

/-- The LC once the ANSWER with this serial has left: a restart that waits for it is ready. -/
def Lc.answerLeft (l : Lc) (serial : Nat) : Lc :=
  { l with restart := if l.restart = .waiting serial then .ready else l.restart }

theorem frameLeft_other (h : f.answerOf = none) : frameLeft l n f = l := by
  simp only [frameLeft, h]

theorem answerLeft_eq (l : Lc) (k : Nat) :
    (if l.restart = .waiting k then { l with restart := .ready } else l) = l.answerLeft k := by
  unfold Lc.answerLeft
  split <;> rfl

/-- A part of an answer the buffer no longer holds brings no other. -/
theorem frameLeft_replaced {k : Nat} (h : f.answerOf = some k) (other : ∀ a, l.answer = some a → a.serial ≠ k) :
    frameLeft l n f = l.answerLeft k := by
  simp only [frameLeft, h, answerLeft_eq]
  split
  next a held => exact if_neg (other a held)
  · rfl

/-- A part of the answer held brings its next one. -/
theorem frameLeft_held {k : Nat} {a : Answer} (h : f.answerOf = some k) (held : l.answer = some a)
    (serial : a.serial = k) : frameLeft l n f = (offerPart (l.answerLeft k) n a).1 := by
  have held' : (l.answerLeft k).answer = some a := held
  simp only [frameLeft, h, answerLeft_eq, held', serial, if_true]

end

end Sys2Proof.Machine
end

section
/-! SUPPORT. Tool commands judged, and RESTART (O22, O24). -/

namespace Sys2Proof.Machine

/-! ### The tests of R171, in their order -/

/-- Only the code of a sub-kind spells it (Table 9-5). -/
theorem SubKind.eq_byte_of_ofByte? {b : Byte} {k : SubKind} (h : SubKind.ofByte? b = some k) : b = k.byte := by
  unfold SubKind.ofByte? at h
  split at h <;> cases h <;> exact BitVec.eq_of_toNat_eq ‹_›

theorem not_fromTool_iff {h : Header} : ¬ FromTool h ↔ h.sender.toNat < 28 ∨ 31 < h.sender.toNat := by
  unfold FromTool
  omega

section
variable {l : Lc} {s : State} {h : Header} (sub tag : Byte) (params : List Byte)

/-- Not for this station, or behind a RESTART: no answer. -/
theorem toolCommand_void (v : h.dest.toNat ≠ s.cfg.station ∨ l.restart ≠ .none) :
    toolCommand l s h (sub :: tag :: params) = quiet l := if_pos v

variable (dest : h.dest.toNat = s.cfg.station) (free : l.restart = .none)
include dest free

theorem toolCommand_notPermitted (stranger : ¬ FromTool h) : toolCommand l s h (sub :: tag :: params) =
    quiet (giveAnswer l s.cfg.station ⟨h.sender.toNat, sub, tag⟩ .notPermitted []).1 := by
  have sender := not_fromTool_iff.mp stranger
  simp only [toolCommand, dest, free, sender, ne_eq, not_true_eq_false, or_self, if_false, if_true]

variable (tool : FromTool h)
include tool

theorem toolCommand_unknown (unknown : SubKind.ofByte? sub = none) : toolCommand l s h (sub :: tag :: params) =
    quiet (giveAnswer l s.cfg.station ⟨h.sender.toNat, sub, tag⟩ .unknown []).1 := by
  have sender := mt not_fromTool_iff.mpr (not_not.mpr tool)
  simp only [toolCommand, dest, free, sender, unknown, ne_eq, not_true_eq_false, or_self, if_false]

theorem toolCommand_range {k : SubKind} (wrong : params.length ≠ k.paramLength) :
    toolCommand l s h (k.byte :: tag :: params) =
      quiet (giveAnswer l s.cfg.station (askOf h k tag) .range []).1 := by
  have sender := mt not_fromTool_iff.mpr (not_not.mpr tool)
  simp only [toolCommand, dest, free, sender, SubKind.ofByte?_byte, wrong, askOf, ne_eq, not_true_eq_false,
    not_false_eq_true, or_self, if_false, if_true]

theorem toolCommand_locked {k : SubKind} (length : params.length = k.paramLength) (altering : k.altering = true)
    (lock : s.fli.inputs.lock = true) : toolCommand l s h (k.byte :: tag :: params) =
      quiet (giveAnswer l s.cfg.station (askOf h k tag) .locked []).1 := by
  have sender := mt not_fromTool_iff.mpr (not_not.mpr tool)
  simp only [toolCommand, dest, free, sender, SubKind.ofByte?_byte, length, altering, lock, askOf, ne_eq,
    not_true_eq_false, or_self, Bool.and_self, if_false, if_true]

end

/-! ### An accepted tool command (R166, R171) -/

section
variable {s : State} {h : Header}

theorem exec_toolCommandOf (k : SubKind) (h : Header) (tag : Byte) (params : List Byte) (s : State) :
    exec (toolCommandOf k h tag params) s = .next (s.run [toolOf k h tag params]) := by
  cases k with
  | _ => rfl

theorem exec_unknownToolCommand (h : Header) (sub tag : Byte) (params : List Byte) (s : State) :
    exec (.unknownToolCommand h sub tag params) s = .next (s.run [frameOf .toolCommand h (sub :: tag :: params)]) := rfl

/-- What the LC alone makes of an accepted tool command. -/
theorem run_toolFrame {l : Lc} {payload : List Byte} (ha : Accepts s h)
    (judged : toolCommand s.heard.lc s h payload = quiet l) :
    s.run [frameOf .toolCommand h payload] = { s with lc := l } := by
  obtain ⟨up, -⟩ := id ha
  exact run_lc_quiet up ((frameEnd_of_accepts ha _ _).trans judged)

variable (sub tag : Byte) (params : List Byte)

theorem run_toolFrame_void (ha : Accepts s h) (v : h.dest.toNat ≠ s.cfg.station ∨ s.lc.restart ≠ .none) :
    s.run [frameOf .toolCommand h (sub :: tag :: params)] = s.heard :=
  run_toolFrame ha (toolCommand_void (l := s.heard.lc) sub tag params v)

theorem run_toolFrame_notPermitted (ha : Accepts s h) (dest : h.dest.toNat = s.cfg.station)
    (free : s.lc.restart = .none) (stranger : ¬ FromTool h) :
    s.run [frameOf .toolCommand h (sub :: tag :: params)] =
      s.heard.answered ⟨h.sender.toNat, sub, tag⟩ .notPermitted [] :=
  run_toolFrame ha (toolCommand_notPermitted (l := s.heard.lc) sub tag params dest free stranger)

end

/-- Settles O22: each test of R171 refuses with its own result, and the row of unknown sub-kinds is the same frame. -/
theorem toolCommandsAreJudged : Obligations.ToolCommandsAreJudged := by
  refine ⟨fun k h tag params s ha => ?_, fun h sub tag params s hc unknown => ?_, fun k h sub tag params s known => ?_,
    fun h sub tag params s ha => ⟨fun v => ?_, fun dest free stranger => ?_⟩⟩
  · have row := exec_toolCommandOf k h tag params s
    refine ⟨fun v => row.trans (congrArg _ (run_toolFrame_void _ tag params ha v)),
      fun dest free stranger => row.trans (congrArg _ (run_toolFrame_notPermitted _ tag params ha dest free stranger)),
      fun hc wrong => ?_, fun hc length altering lock => ?_⟩
    · obtain ⟨-, tool, dest, free⟩ := hc
      exact row.trans
        (congrArg _ (run_toolFrame ha (toolCommand_range (l := s.heard.lc) tag params dest free tool wrong)))
    · obtain ⟨-, tool, dest, free⟩ := hc
      exact row.trans (congrArg _
        (run_toolFrame ha (toolCommand_locked (l := s.heard.lc) tag params dest free tool length altering lock)))
  · obtain ⟨ha, tool, dest, free⟩ := hc
    exact congrArg Host.Outcome.next
      (run_toolFrame ha (toolCommand_unknown (l := s.heard.lc) sub tag params dest free tool unknown))
  · rw [exec_unknownToolCommand, exec_toolCommandOf, SubKind.eq_byte_of_ofByte? known, toolOf]
  · exact congrArg Host.Outcome.next (run_toolFrame_void sub tag params ha v)
  · exact congrArg Host.Outcome.next (run_toolFrame_notPermitted sub tag params ha dest free stranger)

/-! ### RESTART (R173) -/

/-- Settles O24: RESTART is permitted, so its answer is offered, and what the queue says of it makes the restart wait
or ready. -/
theorem restartIsAnswered : Obligations.RestartIsAnswered := by
  intro h tag s hc unlocked r
  obtain ⟨ha, tool, dest, free⟩ := hc
  obtain ⟨-, enabled, -⟩ := id ha
  have lock : (SubKind.restart.altering && s.fli.inputs.lock) = false := by rw [unlocked, Bool.and_false]
  have permitted : toolCommand s.heard.lc s h (SubKind.restart.byte :: tag :: []) = quiet
      { r.1 with restart := if r.2 then .waiting s.lc.answerSeq else .ready } :=
    toolCommand_permitted (k := .restart) (l := s.heard.lc) tag tool dest free rfl lock
  have taken : r.2 = (!s.lc.duplicate && decide (s.lc.queue.length < 8)) :=
    giveAnswer_snd (l := s.heard.lc) _ _ _ _ enabled
  refine ⟨congrArg Host.Outcome.next (run_toolFrame ha permitted), fun duplicate => ?_, fun single room => ?_,
    fun single full => ?_⟩
  · rw [taken, duplicate, Bool.not_true, Bool.false_and]
  · rw [taken, single, decide_eq_true room, Bool.not_false, Bool.and_self]
  · rw [taken, single, decide_eq_false (Nat.not_lt.mpr full), Bool.and_false]

end Sys2Proof.Machine
end

section
/-! SUPPORT. Characters and the bits they are sent as, and the tests of R163 on a frame's characters (O21). -/

namespace Sys2Proof.Machine

/-! ### The bits of a character (R162) -/

/-- The data bits of a character, the least significant first. -/
def dataBits (c : Byte) : List Bool :=
  [c.getLsbD 0, c.getLsbD 1, c.getLsbD 2, c.getLsbD 3, c.getLsbD 4, c.getLsbD 5, c.getLsbD 6, c.getLsbD 7]

theorem sentBits_eq (c : Byte) : sentBits c = [false] ++ dataBits c ++ [oddParity c, true, true] := rfl

theorem dataBits_getD (c : Byte) {i : Nat} (h : i < 8) : (dataBits c).getD i false = c.getLsbD i := by
  match i, h with
  | 0, _ | 1, _ | 2, _ | 3, _ | 4, _ | 5, _ | 6, _ | 7, _ => rfl

/-- The number that bits stand for, the least significant first. -/
theorem testBit_foldr_bits (d : List Bool) (i : Nat) :
    (d.foldr (fun (b : Bool) n => 2 * n + b.toNat) 0).testBit i = d.getD i false := by
  induction d generalizing i with
  | nil => simp
  | cons b d ih =>
      rw [List.foldr_cons, ← Nat.bit_val]
      cases i with
      | zero => rw [Nat.testBit_bit_zero, List.getD_cons_zero]
      | succ i => rw [Nat.testBit_bit_succ, ih, List.getD_cons_succ]

theorem byteOfBits_dataBits (c : Byte) : byteOfBits (dataBits c) = c := by
  refine BitVec.eq_of_getLsbD_eq fun i hi => ?_
  rw [byteOfBits, BitVec.getLsbD_ofNat, testBit_foldr_bits, dataBits_getD c hi, decide_eq_true hi, Bool.true_and]

/-! ### Parity (R162) -/

/-- Bits taken into a parity one after the other: it turns over at each 1. -/
theorem foldl_parity (d : List Bool) (q : Bool) :
    d.foldl (fun p b => p != b) q = (q != decide (d.count true % 2 = 1)) := by
  induction d generalizing q with
  | nil => simp
  | cons b d ih =>
      have turn : decide ((b :: d).count true % 2 = 1) = (b != decide (d.count true % 2 = 1)) := by
        cases b
        · simp
        · rw [List.count_cons_self, Bool.true_bne, ← decide_not, decide_eq_decide]
          omega
      rw [List.foldl_cons, ih, turn, Bool.bne_assoc]

theorem oddParity_eq (c : Byte) : oddParity c = decide ((dataBits c).count true % 2 = 0) := by
  have folded : oddParity c = (dataBits c).foldl (fun p b => p != b) true := rfl
  rw [folded, foldl_parity, Bool.true_bne, ← decide_not, decide_eq_decide]
  omega

/-- With its parity bit, and no other, a character has an odd number of ones. -/
theorem odd_ones_iff (c : Byte) (parity : Bool) :
    (dataBits c ++ [parity]).count true % 2 = 1 ↔ parity = oddParity c := by
  rw [oddParity_eq, List.count_append]
  cases parity
  · simp
  · simp
    omega

/-! ### Characters received (R162) -/

theorem receiveBits_idle (rest : List Bool) : receiveBits (true :: rest) = receiveBits rest := by
  rw [receiveBits]
  nofun

/-- From a start bit on, eight data bits, a parity bit and one stop bit are a character. -/
theorem receiveBits_character (c : Byte) (parity stop : Bool) (rest : List Bool) :
    receiveBits ([false] ++ dataBits c ++ [parity, stop] ++ rest) =
      (c, parity != oddParity c || !stop) :: receiveBits rest := by
  have read : charRead (dataBits c) parity stop = (c, parity != oddParity c || !stop) := by
    rw [charRead, byteOfBits_dataBits]
  exact congrArg (· :: receiveBits rest) read

/-- The character is bad by its parity bit or its first stop bit. -/
theorem bad_iff (c : Byte) (parity stop : Bool) : (parity != oddParity c || !stop) = true ↔
    (dataBits c ++ [parity]).count true % 2 = 0 ∨ stop = false := by
  have even : (dataBits c ++ [parity]).count true % 2 = 0 ↔ ¬ parity = oddParity c := by
    rw [← odd_ones_iff]
    omega
  rw [Bool.or_eq_true, bne_iff_ne, Bool.not_eq_true', even]

/-- The second stop bit may be missing. -/
theorem receiveBits_sent (c : Byte) (rest : List Bool) :
    receiveBits ((sentBits c).take 11 ++ rest) = (c, false) :: receiveBits rest := by
  have good : (oddParity c != oddParity c || !true) = false := by simp
  have read := receiveBits_character c (oddParity c) true rest
  rwa [good] at read

/-- Characters sent one after the other are received as they are. -/
theorem receiveChars_sent (cs : List Byte) : receiveChars (cs.flatMap sentBits) = cs.map fun c => (c, false) := by
  induction cs with
  | nil => rfl
  | cons c cs ih =>
      calc receiveChars ((c :: cs).flatMap sentBits)
          = receiveBits ((sentBits c).take 11 ++ (true :: (cs.flatMap sentBits ++ List.replicate 10 true))) := by
            rw [receiveChars, List.flatMap_cons, List.append_assoc]; rfl
        _ = (c, false) :: receiveChars (cs.flatMap sentBits) := by rw [receiveBits_sent, receiveBits_idle]; rfl
        _ = _ := by rw [ih, List.map_cons]

/-! ### The tests of R163 -/

/-- A frame's characters without a fault, as the receiver holds them. -/
theorem filled_good (r : Rx) {cs : List Byte} (few : cs.length ≤ 56) :
    r.filled (cs.map fun c => (c, false)) = { r with chars := cs, bad := false } := by
  have kept : ((cs.map fun c => (c, false)).map (·.1)).take 56 = cs := by
    rw [List.map_map, List.take_of_length_le (by simpa using few)]
    exact List.map_id cs
  have good :
      ((cs.map fun c => (c, false)).any (·.2) || decide (56 < (cs.map fun c => (c, false)).length)) = false := by
    simpa using few
  rw [Rx.filled, kept, good]

section
variable (f : TxFrame) (station : Nat)

theorem body_length : (f.body station).length = 6 + f.payload.length := by
  simp only [TxFrame.body, List.length_append, List.length_cons, List.length_nil]

theorem beBytes_length (w n : Nat) : (beBytes w n).length = w := by
  induction w with
  | zero => rfl
  | succ w ih => rw [beBytes, List.length_cons, ih]

theorem characters_length : (f.characters station).length = 8 + f.payload.length := by
  rw [TxFrame.characters, List.length_append, body_length, beBytes_length]
  omega

theorem characters_take : (f.characters station).take (6 + f.payload.length) = f.body station :=
  List.take_left' (body_length f station)

/-- The two characters behind header and payload stand for their check. -/
theorem characters_check :
    fieldAt (f.characters station) (6 + f.payload.length) 2 = (crc (f.body station)).toNat := by
  rw [fieldAt, TxFrame.characters, List.drop_left' (body_length f station),
    List.take_of_length_le (beBytes_length 2 _).le, beNat_beBytes_of_lt]
  exact (crc (f.body station)).isLt

theorem characters_payload : ((f.characters station).drop 6).take f.payload.length = f.payload := by
  have behind : (f.characters station).drop 6 = f.payload ++ beBytes 2 (crc (f.body station)).toNat := rfl
  rw [behind, List.take_left' rfl]

/-- The characters of a frame pass the tests at every receiver that saw its beginning, and give it back. -/
theorem judgeChars_sent {r : Rx} (seen : r.waitGap = false) (few : f.payload.length ≤ 48) :
    judgeChars (r.filled ((f.characters station).map fun c => (c, false))) =
      some (⟨BitVec.ofNat 8 station, BitVec.ofNat 8 f.group, BitVec.ofNat 8 f.dest⟩, BitVec.ofNat 8 f.kind.code,
        f.payload) := by
  have length : (byteAt (f.characters station) 5).toNat = f.payload.length := by
    have fits : f.payload.length < 2 ^ 8 := by omega
    exact (BitVec.toNat_ofNat _ _).trans (Nat.mod_eq_of_lt fits)
  have start : byteAt (f.characters station) 0 = 0xC3 := rfl
  have whole := characters_length f station
  have enough : ¬ 8 + f.payload.length < 8 := by omega
  rw [filled_good r (by omega)]
  simp only [judgeChars, length, start, whole, enough, seen, characters_take, characters_check, characters_payload,
    Nat.not_lt.mpr few, Bool.or_self, Bool.false_eq_true, ne_eq, not_true_eq_false, if_false]
  rfl

end

/-- What a frame's characters are that pass the tests of R163. -/
theorem passes_of_judgeChars {r : Rx} {x : Header × Byte × List Byte} (h : judgeChars r = some x) :
    r.bad = false ∧ r.waitGap = false ∧ 8 ≤ r.chars.length ∧ byteAt r.chars 0 = 0xC3 ∧
      (byteAt r.chars 5).toNat ≤ 48 ∧ r.chars.length = 8 + (byteAt r.chars 5).toNat ∧
      (crc (r.chars.take (6 + (byteAt r.chars 5).toNat))).toNat =
        fieldAt r.chars (6 + (byteAt r.chars 5).toNat) 2 := by
  simp only [judgeChars, Option.ite_none_left_eq_some] at h
  obtain ⟨clear, enough, start, short, whole, check, -⟩ := h
  obtain ⟨good, seen⟩ : r.bad = false ∧ r.waitGap = false := by simpa using clear
  exact ⟨good, seen, Nat.not_lt.mp enough, not_not.mp start, Nat.not_lt.mp short, not_not.mp whole, not_not.mp check⟩

/-- Each test of R163 discards alone, and so does a beginning that was not seen. -/
theorem judgeChars_fails {r : Rx} {got : List (Byte × Bool)}
    (fails :
      let chars := got.map (·.1)
      let n := (byteAt chars 5).toNat
      r.waitGap = true ∨ (∃ x ∈ got, x.2 = true) ∨ 56 < chars.length ∨ chars.length < 8 ∨ byteAt chars 0 ≠ 0xC3 ∨
        48 < n ∨ chars.length ≠ 8 + n ∨ (crc (chars.take (6 + n))).toNat ≠ fieldAt chars (6 + n) 2) :
    judgeChars (r.filled got) = none := by
  refine Option.eq_none_iff_forall_ne_some.mpr fun x passes => ?_
  obtain ⟨good, seen, enough, start, short, whole, check⟩ := passes_of_judgeChars passes
  obtain ⟨sound, few⟩ : (∀ x ∈ got, x.2 = false) ∧ (got.map (·.1)).length ≤ 56 := by
    simpa [Rx.filled] using good
  have kept : (r.filled got).chars = got.map (·.1) := List.take_of_length_le few
  rw [kept] at enough start short whole check
  rcases fails with unseen | ⟨x, mem, bad⟩ | many | less | other | long | ragged | wrong
  · exact absurd (unseen.symm.trans seen) nofun
  · exact absurd (bad.symm.trans (sound x mem)) nofun
  · exact absurd few (Nat.not_le.mpr many)
  · exact absurd enough (Nat.not_le.mpr less)
  · exact other start
  · exact absurd short (Nat.not_le.mpr long)
  · exact ragged whole
  · exact wrong check

/-! ### A frame given by its bits -/

section
variable {s : State} {first following : List Bool}

theorem exec_frameDiscarded (up : s.isUp = true) {l : Lc} {rs : List Report}
    (told : rawEnd s.lc s (first ++ following) = (l, rs)) :
    exec (.frameDiscarded first following) s = .next (State.handOn { s with lc := l } 1 rs) :=
  congrArg Host.Outcome.next (run_lc up told)

/-- Bits that do not pass the tests end the frame, and nothing more. -/
theorem rawEnd_fails {bits : List Bool} (enabled : s.lc.enabled = true) (still : s.lc.sending = false)
    (fails : judgeChars (s.lc.rx.filled (receiveChars bits)) = none) : rawEnd s.lc s bits = quiet s.heard.lc := by
  simp only [rawEnd, enabled, fails, still, Bool.not_true, Bool.false_eq_true, if_false, State.heard]

/-- Bits that pass are the end of the frame they spell. -/
theorem rawEnd_passes {bits : List Bool} {h : Header} {kind : Byte} {p : List Byte} (enabled : s.lc.enabled = true)
    (passes : judgeChars (s.lc.rx.filled (receiveChars bits)) = some (h, kind, p)) :
    rawEnd s.lc s bits = frameEnd s.lc s h kind p := by
  simp only [rawEnd, enabled, passes, Bool.not_true, Bool.false_eq_true, if_false]

end

/-- Settles O21: a frame is judged by its characters alone, and characters sent are received as they are. -/
theorem badFramesAreDiscarded : Obligations.BadFramesAreDiscarded := by
  refine ⟨fun first following s up enabled still => ?_, fun f station few => ?_,
    fun k h p c s row up enabled seen few => ?_, fun c rest => ⟨⟨oddParity c, rfl, ?_⟩, ?_, ?_, fun parity stop => ?_⟩⟩
  · intro got chars n fails
    exact next_of_silent (exec_frameDiscarded up (rawEnd_fails enabled still (judgeChars_fails fails)))
  · intro got
    have received : got = (f.characters station).map fun c => (c, false) := receiveChars_sent _
    exact ⟨received, received ▸ judgeChars_sent f station rfl few⟩
  · intro f first following bits
    have passes : judgeChars (s.lc.rx.filled (receiveChars (first ++ following))) =
        some (h, BitVec.ofNat 8 k.code, p) := by
      have spelt := judgeChars_sent f h.sender.toNat seen few
      simp only [f, BitVec.ofNat_toNat, BitVec.setWidth_eq] at spelt
      rw [bits, receiveChars_sent, spelt]
    have same := rawEnd_passes enabled passes
    exact (exec_frameDiscarded up same).trans (exec_frame row up rfl).symm
  · exact (odd_ones_iff c _).mpr rfl
  · exact receiveBits_sent c rest
  · exact receiveBits_idle rest
  · exact ⟨_, receiveBits_character c parity stop rest, bad_iff c parity stop⟩

end Sys2Proof.Machine
end

section
/-! SUPPORT. Access, attempts, collisions and backoff, and the events of the line (O54). -/

namespace Sys2Proof.Machine

/-! ### The access wait (R169) -/

theorem mayWait_iff (l : Lc) : l.mayWait = true ↔
    l.enabled = true ∧ l.sending = false ∧ l.backoff = none ∧ (l.rx.inFrame = false ∨ l.rx.own = true) := by
  simp [Lc.mayWait, and_assoc]

theorem accessWait_eq (k : Kind) (n : Nat) : accessWait k n = (if k.urgent then 3 else 6) + n % 8 := rfl

/-- The head waits for the line, each kind its own time, or nothing does. -/
theorem kick_access (l : Lc) (n : Nat) : (kick l n).access =
    (if l.enabled ∧ l.sending = false ∧ l.backoff = none ∧ (l.rx.inFrame = false ∨ l.rx.own = true)
      then l.queue.head?.map fun f => (if f.kind.urgent then 3 else 6) + n % 8 else none) := by
  simp only [← mayWait_iff, ← accessWait_eq]
  unfold kick
  cases l.queue with
  | nil => exact (ite_self none).symm
  | cons f rest => rfl

/-- A head whose backoff runs does not wait for the line. -/
theorem kick_backoff {l : Lc} (n : Nat) (h : l.backoff.isSome = true) : kick l n = { l with access := none } := by
  have idle : (kick l n).access = none := by
    rw [kick_access, if_neg]
    rintro ⟨-, -, stopped, -⟩
    rw [stopped] at h
    cases h
  exact congrArg (fun t : Timer => { l with access := t }) idle

theorem backoffOf_range (l : Lc) : 2 ≤ backoffOf l ∧ backoffOf l ≤ 32 := by
  unfold backoffOf
  omega

/-! ### Attempts (R169, R170) -/

section
variable {l : Lc} {f : TxFrame} {rest : List TxFrame} (n : Nat)

theorem accessDone_void (h : l.access = none ∨ l.queue = [] ∨ l.sending = true) : accessDone l = l := by
  unfold accessDone
  split
  next f rest wait queue =>
    rcases h with idle | empty | sending
    · rw [idle] at wait; cases wait
    · rw [empty] at queue; cases queue
    · exact if_pos sending
  · rfl

theorem accessDone_begins (wait : l.access.isSome = true) (queue : l.queue = f :: rest) (still : l.sending = false) :
    accessDone l = { l with
      access := none, sending := true, rx := Rx.begun true
      queue := { f with attempts := f.attempts + 1 } :: rest } := by
  obtain ⟨t, wait⟩ := Option.isSome_iff_exists.mp wait
  simp only [accessDone, wait, queue, still, Bool.false_eq_true, if_false]

theorem frameSent_void (h : l.sending = false ∨ l.queue = []) : frameSent l n = l := by
  unfold frameSent
  split
  next f rest sending queue =>
    rcases h with still | empty
    · rw [still] at sending; cases sending
    · rw [empty] at queue; cases queue
  · rfl

section
variable (sending : l.sending = true) (queue : l.queue = f :: rest)
include sending queue

theorem frameSent_head : frameSent l n =
    kick (frameLeft { l with sending := false, rx := { l.rx with whole := true }, queue := rest } n f) n := by
  simp only [frameSent, sending, queue]

/-- After its sixth attempt a frame leaves the queue. -/
theorem collide_last (last : 6 ≤ f.attempts) :
    collide l n = kick (frameLeft { l with sending := false, queue := rest } n f) n := by
  simp only [collide, sending, queue, last, if_true]

/-- A STATE behind which a newer one waits leaves the queue. -/
theorem collide_displaced (few : f.attempts < 6) (state : f.kind = .state) (newer : ∃ g ∈ rest, g.kind = .state) :
    collide l n = kick { l with sending := false, queue := rest } n := by
  have waits : f.kind = .state ∧ rest.any (·.kind == .state) = true := ⟨state, by simpa using newer⟩
  simp only [collide, sending, queue, Nat.not_le.mpr few, if_false]
  exact if_pos waits

/-- Any other frame is tried again after its backoff. -/
theorem collide_again (few : f.attempts < 6) (alone : f.kind ≠ .state ∨ ∀ g ∈ rest, g.kind ≠ .state) :
    collide l n = { l with
      sending := false, access := none, backoff := some (backoffOf l), prng := Config.prngNext l.draws l.prng
      draws := l.draws + 1 } := by
  have keeps : ¬ (f.kind = .state ∧ rest.any (·.kind == .state) = true) := by
    rintro ⟨state, newer⟩
    obtain ⟨g, mem, waits⟩ := List.any_eq_true.mp newer
    exact alone.elim (· state) fun others => others g mem (beq_iff_eq.mp waits)
  simp only [collide, sending, queue, Nat.not_le.mpr few, if_false]
  exact (if_neg keeps).trans (kick_backoff n rfl)

end

theorem backoffEnd_void (h : l.backoff = none) : backoffEnd l n = l := by
  simp only [backoffEnd, h, Option.isNone_none, if_true]

theorem backoffEnd_running (h : l.backoff.isSome = true) : backoffEnd l n = kick { l with backoff := none } n := by
  obtain ⟨t, running⟩ := Option.isSome_iff_exists.mp h
  simp only [backoffEnd, running, Option.isNone_some, Bool.false_eq_true, if_false]

theorem startBit_enabled (h : l.enabled = true) : startBit l n = kick { l with rx := Rx.begun l.sending } n := if_pos h

theorem startBit_disabled (h : l.enabled = false) : startBit l n = l := if_neg (ne_true_of_eq_false h)

end

/-! ### The character under transmission (R162, R169) -/

section
variable {s : State} {place : Nat} {readback : List Bool}

/-- A character reads back well only as itself, first, and without a fault. -/
theorem mismatched_iff (c : Byte) (readback : List Bool) :
    mismatched c readback = true ↔ ∀ more, receiveChars readback ≠ (c, false) :: more := by
  unfold mismatched
  cases receiveChars readback <;> simp

theorem mismatch_iff : s.mismatch place readback = true ↔
    ∃ c, s.sentCharacters[place]? = some c ∧ ∀ more, receiveChars readback ≠ (c, false) :: more := by
  simp only [← mismatched_iff, State.mismatch]
  cases s.sentCharacters[place]? <;> simp

/-- An event of the line: the LC acts on it, and nothing else happens. -/
theorem exec_lineEvent {c : Instr} {m : LcMsg} {l : Lc} (up : s.isUp = true) (row : exec c s = .next (s.run [.lc m]))
    (acts : lcHandle m s = quiet l) : exec c s = .next { s with lc := l } :=
  row.trans (congrArg _ (run_lc_quiet up acts))

theorem exec_collision (up : s.isUp = true) (h : s.mismatch place readback = true) :
    exec (.collision place readback) s = .next { s with lc := collide s.lc s.cfg.station } :=
  exec_lineEvent up rfl (congrArg quiet (if_pos h))

theorem exec_collision_void (up : s.isUp = true) (h : s.mismatch place readback = false) :
    exec (.collision place readback) s = .next s :=
  exec_lineEvent up rfl (congrArg quiet (if_neg (ne_true_of_eq_false h)))

end

/-! ### O54, clause by clause -/

theorem offerFrame_cases (l : Lc) (n : Nat) (g : TxFrame) :
    let f : TxFrame := { g with attempts := 0 }
    let kept (q : List TxFrame) : Lc × Bool := (kick { l with queue := q } n, true)
    let lead := if l.sending then l.queue.take 1 else []
    let rest := if l.sending then l.queue.drop 1 else l.queue
    let behind := if l.queue.length < 8 then kept (l.queue ++ [f]) else (l, false)
    (l.enabled = false ∨ (l.duplicate = true ∧ g.kind ≠ .state) → offerFrame l n g = (l, false)) ∧
    (l.enabled = true → l.duplicate = false → g.kind ≠ .state → offerFrame l n g = behind) ∧
    (l.enabled = true → g.kind = .state → (∀ x ∈ rest, x.kind ≠ .state) → offerFrame l n g = behind) ∧
    (∀ a x b, l.enabled = true → g.kind = .state → rest = a ++ x :: b → x.kind = .state →
      (∀ y ∈ a, y.kind ≠ .state) → offerFrame l n g = kept (lead ++ a ++ f :: b)) := by
  intro f kept lead rest behind
  refine ⟨offerFrame_refused n, fun enabled single other => ?_, fun enabled state fresh => ?_,
    fun a x b enabled state split old first => ?_⟩
  · exact offerFrame_behind n enabled (.inl single) fun state => absurd state other
  · refine offerFrame_behind n enabled (.inr state) fun _ => ?_
    rw [replaceWaiting_eq, replaceState_none f fresh, Option.map_none]
  · refine offerFrame_replaced n enabled state ?_
    have replaced : replaceState f rest = some (a ++ f :: b) := split ▸ replaceState_first f b first old
    rw [replaceWaiting_eq, replaced, Option.map_some, List.append_assoc]

theorem frameLeft_cases (l : Lc) (n k : Nat) (f : TxFrame) :
    let r : Lc := l.answerLeft k
    let left := frameLeft l n f
    (f.answerOf = none → left = l) ∧
    (f.answerOf = some k → (∀ a, l.answer = some a → a.serial ≠ k) → left = r) ∧
    (∀ a, f.answerOf = some k → l.answer = some a → a.serial = k →
      let part : TxFrame := { answerFrame a a.next with answerOf := some k }
      (partCount a.data ≤ a.next → left = { r with answer := none }) ∧
      (a.next < partCount a.data → (offerFrame r n part).2 = true →
        left = { (offerFrame r n part).1 with answer := some { a with next := a.next + 1 } }) ∧
      (a.next < partCount a.data → (offerFrame r n part).2 = false → left = { r with answer := none })) := by
  intro r left
  refine ⟨frameLeft_other n, frameLeft_replaced n, fun a part held serial => ?_⟩
  have next : left = (offerPart r n a).1 := frameLeft_held n part held serial
  subst serial
  exact ⟨fun last => next.trans (congrArg Prod.fst (offerPart_last n last)),
    fun more taken => next.trans (congrArg Prod.fst (offerPart_taken n more taken)),
    fun more refused => next.trans (congrArg Prod.fst (offerPart_refused n more refused))⟩

theorem giveAnswer_cases (l : Lc) (n : Nat) (ask : Ask) (r : Result) (data : List Byte) :
    let kept := if r = .done then data else []
    let m : Lc := { l with answerSeq := l.answerSeq + 1 }
    let part := answerFrame ⟨l.answerSeq, ask, r, kept, 0⟩ 0
    ((offerFrame m n part).2 = true → giveAnswer l n ask r data =
      ({ (offerFrame m n part).1 with
          answer := some { serial := l.answerSeq, ask := ask, result := r, data := kept, next := 1 } }, true)) ∧
    ((offerFrame m n part).2 = false → giveAnswer l n ask r data = ({ m with answer := none }, false)) := by
  intro kept m part
  exact ⟨offerPart_taken (a := ⟨l.answerSeq, ask, r, kept, 0⟩) n (partCount_pos _),
    offerPart_refused (a := ⟨l.answerSeq, ask, r, kept, 0⟩) n (partCount_pos _)⟩

/-- Settles O54: each event of the line is one act of the LC, and each act falls into its cases. -/
theorem lineEvents : Obligations.LineEvents := by
  refine ⟨offerFrame_cases, frameLeft_cases, fun d => ⟨partCount_pos d, length_le_partCount d, partCount_lt⟩,
    fun l n => ⟨kick_access l n, rfl, backoffOf_range l⟩, fun s up => ?_, giveAnswer_cases,
    fun s place readback => ⟨?_, mismatch_iff, fun well up => exec_collision_void up well⟩⟩
  · refine ⟨fun idle => exec_lineEvent up rfl (congrArg quiet (accessDone_void idle)),
      fun f rest wait queue still => exec_lineEvent up rfl (congrArg quiet (accessDone_begins wait queue still)),
      fun idle => exec_lineEvent up rfl (congrArg quiet (frameSent_void _ idle)),
      fun f rest sending queue => ⟨?_, ?_, ?_⟩,
      fun f rest sending queue few alone place bits wrong => ?_,
      fun stopped => exec_lineEvent up rfl (congrArg quiet (backoffEnd_void _ stopped)),
      fun running => exec_lineEvent up rfl (congrArg quiet (backoffEnd_running _ running)),
      fun off => exec_lineEvent up rfl (congrArg quiet (startBit_disabled _ off)),
      fun enabled => exec_lineEvent up rfl (congrArg quiet (startBit_enabled _ enabled))⟩
    · exact exec_lineEvent up rfl (congrArg quiet (frameSent_head _ sending queue))
    · intro place bits wrong last
      rw [exec_collision up wrong, collide_last _ sending queue last]
    · intro place bits wrong few state newer
      rw [exec_collision up wrong, collide_displaced _ sending queue few state newer]
    · rw [exec_collision up wrong, collide_again _ sending queue few alone]
  · unfold State.sentCharacters
    cases s.lc.sending with
    | false => rfl
    | true => cases s.lc.queue <;> rfl

end Sys2Proof.Machine
end

section
/-! SUPPORT. The state before the first power-on, a part that takes nothing in, loss of power, and the ends of record writes (O5, O11, O12, O60). -/

namespace Sys2Proof.Machine

/-! ### Before the first power-on (O60) -/

theorem Rec.Holds.absent {α : Type} {p : α → Prop} : (Rec.absent : Rec α).Holds p := ⟨nofun, nofun⟩

theorem new_accountsSound : Store.new.AccountsSound where
  slots := ⟨rfl, fun _ hr => List.eq_of_mem_replicate hr ▸ Rec.Holds.absent⟩
  rate := Rec.Holds.absent
  journal := Rec.Holds.absent

/-- Settles O60: the field side and the view of the group stand as in a part made fresh, the books as in a store that
holds no record. -/
theorem resetIsSound : Obligations.ResetIsSound := by
  obtain ⟨valve, share, spared, listed⟩ := (fresh_untouched State.reset .off).fieldSafe
  have fuel : FuelSound State.reset := (fuelSound_iff _).mpr ⟨start_fuSound, Rec.Holds.absent⟩
  have accounts : AccountsSound State.reset := (accountsSound_iff _).mpr ⟨start_buSound, new_accountsSound⟩
  exact ⟨valve, share, fuel, peersSound_invariant.fresh State.reset .off, sidesSound_invariant.fresh State.reset .off,
    spared, listed, queueSound_invariant.fresh State.reset .off, accounts⟩

/-! ### A part that takes nothing in (O5) -/

theorem isUp_of_halted {s : State} (h : s.phase = .off ∨ s.phase = .unusable) : s.isUp = false := by
  rcases h with off | unusable
  · simp [State.isUp, off]
  · simp [State.isUp, unusable]

/-- Every command answers a next state. -/
theorem exec_answers (c : Instr) (s : State) : ∃ t, exec c s = .next t := by
  cases c <;> exact ⟨_, rfl⟩

/-- Settles O5: between two starts a command is reports, which no part without power or usable image takes, and what
starts such a part tests the same. -/
theorem haltedPartTakesNothing : Obligations.HaltedPartTakesNothing := by
  intro c s halted
  have down := isUp_of_halted halted
  refine ⟨fun hc => ?command, fun inp => ?handover, fun off inp => ?resetInput⟩
  case command =>
    obtain ⟨t, ht⟩ := exec_answers c s
    obtain ⟨r, -, rfl⟩ := exec_runs hc ht
    rw [ht, run_down down]
  case handover =>
    have idle : ¬ (s.isUp = true ∧ s.lc.restart = .ready) := by simp [down]
    exact congrArg Host.Outcome.next (if_neg idle)
  case resetInput => exact congrArg Host.Outcome.next (if_pos off)

/-! ### Loss of power (O11) -/

theorem Rec.cut_writing {α : Type} (r : Rec α) : r.cut.writing = none := by
  unfold Rec.cut
  split
  next still => exact still
  next => rfl

theorem Rec.cut_stored {α : Type} (r : Rec α) :
    r.cut.stored = if r.writing.isSome then .damaged else r.stored := by
  unfold Rec.cut
  split
  next still => simp [still]
  next running => simp [running]

/-- Settles O11: the state that loss of power leaves, field by field. -/
theorem powerFailKeepsTheStoreAlone : Obligations.PowerFailKeepsTheStoreAlone := fun s =>
  ⟨losePower s, rfl, rfl, rfl, rfl, rfl, rfl, rfl, rfl, rfl, rfl, rfl, rfl, rfl, rfl, rfl, rfl,
    fun r => ⟨r.cut_writing, r.cut_stored⟩⟩

/-! ### The end of a record's write (O12) -/

section
variable {α : Type} {r : Rec α} {c : α} (now : α)

theorem Rec.written_still (still : r.writing = none) : r.written now = r := by simp [Rec.written, still]

theorem Rec.written_running (running : r.writing = some c) :
    r.written now = ⟨.good c, if r.again then some now else none, false⟩ := by simp [Rec.written, running]

theorem Rec.touch_still (still : r.writing = none) : r.touch now = ⟨r.stored, some now, false⟩ := by
  simp [Rec.touch, still]

theorem Rec.touch_running (running : r.writing = some c) : r.touch now = ⟨r.stored, some c, true⟩ := by
  simp [Rec.touch, running]

end

theorem exec_retainedWriteComplete (r : RecordId) {s : State} (up : s.isUp = true) :
    exec (.retainedWriteComplete r) s = .next { s with store := s.store.written s r } :=
  congrArg Host.Outcome.next (run_one up _)

@[simp] theorem onSlots_length (l : List (Rec Slot)) (slots : List Slot) (i : Nat) (f : Rec Slot → Slot → Rec Slot) :
    (onSlots l slots i f).length = l.length := by
  unfold onSlots
  split <;> simp

/-- Only the record at its own place is acted on. -/
theorem onSlots_getElem? {l : List (Rec Slot)} {slots : List Slot} {j : Nat} {x : Rec Slot} (hx : l[j]? = some x)
    (i : Nat) (f : Rec Slot → Slot → Rec Slot) :
    (onSlots l slots i f)[j]? = some (if i = j then f x (slots.getD i .free) else x) := by
  have inside : j < l.length := (List.getElem?_eq_some_iff.mp hx).1
  by_cases same : i = j
  · subst same
    simp only [onSlots, hx, List.getElem?_set_self inside, if_true]
  · unfold onSlots
    split
    · rw [List.getElem?_set_ne same, hx, if_neg same]
    · rw [hx, if_neg same]

/-- The slot records of a store once a record's write has ended. -/
theorem written_slots (t : Store) (s : State) (r : RecordId) {i : Fin 8} {x : Rec Slot}
    (hx : t.slots[i.val]? = some x) :
    (t.written s r).slots[i.val]? =
      some (if r = .slot i then x.written (s.bu.slots.getD i .free) else x) := by
  cases r with
  | slot k =>
      refine (onSlots_getElem? hx k.val Rec.written).trans ?_
      by_cases e : k = i
      · subst e
        simp
      · simp [e, Fin.val_ne_of_ne e]
  | _ => simpa [Store.written] using hx

theorem written_slots_length (t : Store) (s : State) (r : RecordId) :
    (t.written s r).slots.length = t.slots.length := by
  cases r with
  | slot k => exact onSlots_length ..
  | _ => rfl

/-- Settles O12: one record of the store is acted on, and each act is `Rec.written`. -/
theorem recordWritesEnd : Obligations.RecordWritesEnd := by
  refine ⟨fun r s up => exec_retainedWriteComplete r up, fun r now => ⟨fun still => ?_, fun c running => ?_⟩,
    fun t s r => ⟨?_, ?_, ?_, ?_, ?_, ?_, ?_, written_slots_length t s r, fun i x hx => written_slots t s r hx⟩⟩
  · exact ⟨r.written_still now still, Rec.touch_still now still⟩
  · exact ⟨Rec.written_running now running, Rec.touch_running now running⟩
  all_goals cases r <;> simp [Store.written]

end Sys2Proof.Machine
end

section
/-! SUPPORT. The steps of a start that are taken before any unit acts, and the start that ends at an unusable image (O6). -/

namespace Sys2Proof.Machine

/-! ### Before step 4 (R177) -/

/-- Before step 4 a pulse, a contact change and a frame are lost: the PCU does not count, the FLI has not sampled, the LC
is not enabled. -/
theorem deliver_early {s : State} {k : Nat} (hp : s.phase = .starting k) (hk : k < 4) (silent : s.lc.enabled = false)
    {r : Report} (hr : r.ofEvent = true) : deliver r s = (s, []) := by
  cases r with
  | pcu m =>
      cases m with
      | pulse c gap active =>
          have early : s.pastStep 4 = false := by simp [State.pastStep, hp, hk]
          simp [pcuHandle, early]
      | window c => simp [Report.ofEvent] at hr
  | fli m =>
      cases m with
      | level i b held =>
          have early : s.pastStep 5 = false := by simp [State.pastStep, hp]; omega
          simp [fliHandle, fliLevel, early]
      | _ => simp [Report.ofEvent] at hr
  | lc m =>
      cases m with
      | frame h kind p => simp [lcHandle, frameEnd, silent]
      | _ => simp [Report.ofEvent] at hr
  | _ => simp [Report.ofEvent] at hr

theorem take_early {s : State} {k : Nat} (hp : s.phase = .starting k) (hk : k < 4) (silent : s.lc.enabled = false)
    (inp : StartInputs) (n : Nat) : s.take (eventsAfter inp n) = s := by
  refine settle_invariant_of (fun t => t = s) Report.ofEvent ?_ _ _ s rfl (eventsAfter_ofEvent inp n)
  rintro r t rfl hr
  rw [deliver_early hp hk silent hr]
  exact ⟨rfl, rfl⟩

/-! ### One step of a start -/

section
variable {inp : StartInputs} {s : State} {n : Nat}

theorem runStep_usable (up : s.phase ≠ .unusable) (whole : abandonedBefore inp n = false)
    (usable : (startStep n inp s).phase ≠ .unusable) :
    runStep inp s n = { startStep n inp s with phase := .starting n }.take (eventsAfter inp n) := by
  simp [runStep, up, whole, usable]

/-- Before step 4 it is the step alone. -/
theorem runStep_early (up : s.phase ≠ .unusable) (whole : abandonedBefore inp n = false) (early : n < 4)
    (usable : (startStep n inp s).phase ≠ .unusable) (silent : (startStep n inp s).lc.enabled = false) :
    runStep inp s n = { startStep n inp s with phase := .starting n } := by
  rw [runStep_usable up whole usable]
  exact take_early (s := { startStep n inp s with phase := .starting n }) rfl early silent inp n

theorem runStep_unusable (up : s.phase ≠ .unusable) (whole : abandonedBefore inp n = false)
    (unusable : (startStep n inp s).phase = .unusable) : runStep inp s n = startStep n inp s := by
  simp [runStep, up, whole, unusable]

/-- Nothing more is done once the image has been found unusable. -/
theorem foldl_runStep_ended (ended : s.phase = .unusable) (l : List Nat) : l.foldl (runStep inp) s = s := by
  induction l with
  | nil => rfl
  | cons n l ih =>
      have same : runStep inp s n = s := if_pos (.inl ended)
      rw [List.foldl_cons, same, ih]

theorem not_abandoned_earlier (whole : abandonedBefore inp (n + 1) = false) : abandonedBefore inp n = false :=
  Bool.eq_false_iff.mpr fun gone => by simp [abandonedBefore_succ gone] at whole

/-- Step 1, with the events after it. -/
theorem runStep_one (s : State) (whole : abandonedBefore inp 1 = false) :
    runStep inp (s.fresh (.starting 0)) 1 = s.fresh (.starting 1) :=
  runStep_early (s := s.fresh (.starting 0)) nofun whole (by decide) nofun rfl

theorem stepConfig_unusable {image : List Byte} (bad : imageUsable image = false) (s : State) :
    stepConfig s image = { s with phase := .unusable } := by
  simp [stepConfig, bad]

/-- A start that finds an unusable image ends after step 2 (R178). -/
theorem startPart_unusable (bad : imageUsable inp.image = false) (whole : abandonedBefore inp 2 = false) (s : State) :
    startPart inp s = s.fresh .unusable := by
  have halted : startStep 2 inp (s.fresh (.starting 1)) = s.fresh .unusable := stepConfig_unusable bad _
  have second : runStep inp (s.fresh (.starting 1)) 2 = s.fresh .unusable := by
    rw [runStep_unusable (s := s.fresh _) (by simp) whole (congrArg State.phase halted), halted]
  have steps : stepNumbers.foldl (runStep inp) (s.fresh (.starting 0)) = s.fresh .unusable := by
    rw [stepNumbers, List.foldl_cons, List.foldl_cons, runStep_one s (not_abandoned_earlier whole), second,
      foldl_runStep_ended rfl]
  simp only [startPart, steps]
  exact if_neg fun ended => Phase.noConfusion ended.1

end

/-! ### The kinds of start -/

theorem exec_powerOn (inp : StartInputs) (s : State) :
    exec (.powerOn inp) s = .next (startPart inp (if s.phase = .off then s else losePower s)) := rfl

theorem exec_resetInput (inp : StartInputs) {s : State} (powered : s.phase ≠ .off) :
    exec (.resetInput inp) s = .next (startPart inp { s with store := s.store.finish s }) :=
  congrArg Host.Outcome.next (if_neg powered)

theorem exec_restartHandover (inp : StartInputs) {s : State} (up : s.isUp = true) (ready : s.lc.restart = .ready) :
    exec (.restartHandover inp) s = .next (startPart inp { s with store := s.store.finish s }) :=
  congrArg Host.Outcome.next (if_pos ⟨up, ready⟩)

/-- Settles O6: each kind of start is `startPart`, which an unusable image ends with the state made fresh. -/
theorem unusableImageHaltsTheStart : Obligations.UnusableImageHaltsTheStart := by
  intro inp s bad whole
  refine ⟨?_, fun powered => ?_, fun up ready => ?_, fun x => ⟨rfl, rfl, rfl, rfl, rfl⟩⟩
  · rw [exec_powerOn, startPart_unusable bad whole]
  · rw [exec_resetInput inp powered, startPart_unusable bad whole]
  · rw [exec_restartHandover inp up ready, startPart_unusable bad whole]

end Sys2Proof.Machine
end

section
/-! SUPPORT. The fields of a configuration image, each kept in its range and else clamped, and its mark (O9). -/

namespace Sys2Proof.Machine

/-! ### Numbers (R179, Table 10-2) -/

theorem clampTo_eq {lo hi : Nat} (h : lo ≤ hi) (n : Nat) : clampTo lo hi n = max lo (min hi n) := by
  unfold clampTo
  (repeat' split) <;> omega

/-- A field is marked exactly when it is not kept. -/
theorem ranged_kept {lo hi n : Nat} : (ranged lo hi n).2 = false ↔ (ranged lo hi n).1 = n := by simp [ranged]

theorem taken_kept {n v : Nat} : (taken n v).2 = false ↔ (taken n v).1 = n := by simp [taken]

/-- The largest listed value at or below `n`, else the first one, of a list that rises. -/
theorem listedBelow_spec (a : Nat) (l : List Nat) (n : Nat) (rises : (a :: l).Pairwise (· < ·)) :
    listedBelow (a :: l) n ∈ a :: l ∧ listedBelow (a :: l) n ≤ max a n ∧
      ∀ x ∈ a :: l, x ≤ n → x ≤ listedBelow (a :: l) n := by
  induction l generalizing a with
  | nil => simp [listedBelow]
  | cons b l ih =>
      obtain ⟨first, rest⟩ := List.pairwise_cons.mp rises
      unfold listedBelow
      split
      next below =>
        refine ⟨List.mem_cons_self, Nat.le_max_left a n, fun x hx hn => ?_⟩
        rcases List.mem_cons.mp hx with rfl | later
        · exact Nat.le_refl x
        · have : b ≤ x := by
            rcases List.mem_cons.mp later with rfl | further
            · exact Nat.le_refl x
            · exact Nat.le_of_lt ((List.pairwise_cons.mp rest).1 x further)
          omega
      next reached =>
        obtain ⟨listed, small, largest⟩ := ih b rest
        refine ⟨List.mem_cons_of_mem a listed, by omega, fun x hx hn => ?_⟩
        rcases List.mem_cons.mp hx with rfl | later
        · have := largest b List.mem_cons_self (by omega)
          have := first b List.mem_cons_self
          omega
        · exact largest x later hn

/-! ### Four fields at once -/

theorem loadQuad_get {α : Type} (g : FeederId → Loaded α) (n : FeederId) : (loadQuad g).1.get n = (g n).1 :=
  Quad.get_ofFn _ n

theorem loadQuad_kept {α : Type} {g : FeederId → Loaded α} : (loadQuad g).2 = false ↔ ∀ n, (g n).2 = false := by
  simp only [loadQuad, Bool.or_eq_false_iff]
  exact ⟨fun ⟨⟨⟨h1, h2⟩, h3⟩, h4⟩ n => by cases n <;> assumption, fun h => ⟨⟨⟨h .f1, h .f2⟩, h .f3⟩, h .f4⟩⟩

/-! ### Channels and the probe map (Tables 9-14 and 10-2, R7) -/

/-- The place of a channel's fields in the image. -/
def channelPlace : Channel → Nat
  | .se => 0
  | .bf => 1
  | .ff => 2
  | .lp => 3
  | .f n => 3 + n.index

theorem loadConfig_chan (p : List Byte) (c : Channel) : (loadConfig p).1.chan c = (loadChan p (channelPlace c)).1 := by
  cases c with
  | f n => exact loadQuad_get _ n
  | _ => rfl

theorem loadChan_kept {p : List Byte} {i : Nat} : (loadChan p i).2 = false ↔
    (loadChan p i).1.prescale = fieldAt p (13 + 6 * i) 1 ∧ (loadChan p i).1.weight = fieldAt p (13 + 6 * i + 1) 2 ∧
      (loadChan p i).1.window = fieldAt p (13 + 6 * i + 3) 1 ∧
      (loadChan p i).1.minWidth = fieldAt p (13 + 6 * i + 4) 2 := by
  simp only [loadChan, Bool.or_eq_false_iff, ranged_kept, taken_kept, and_assoc]

section
variable {fE fF : Nat}

theorem loadProbe_same (same : clampTo 10 10000 fE = clampTo 10 10000 fF) : loadProbe fE fF =
    ((clampTo 10 10000 fE, if clampTo 10 10000 fF = 10000 then clampTo 10 10000 fF - 1 else clampTo 10 10000 fF + 1),
      true) := if_pos same

theorem loadProbe_apart (apart : clampTo 10 10000 fE ≠ clampTo 10 10000 fF) : loadProbe fE fF =
    ((clampTo 10 10000 fE, clampTo 10 10000 fF), clampTo 10 10000 fE != fE || clampTo 10 10000 fF != fF) :=
  if_neg apart

theorem loadProbe_first : (loadProbe fE fF).1.1 = clampTo 10 10000 fE := by
  by_cases same : clampTo 10 10000 fE = clampTo 10 10000 fF
  · rw [loadProbe_same same]
  · rw [loadProbe_apart same]

theorem loadProbe_second : (loadProbe fE fF).1.2 =
    if clampTo 10 10000 fE ≠ clampTo 10 10000 fF then clampTo 10 10000 fF
    else if clampTo 10 10000 fF = 10000 then 9999 else clampTo 10 10000 fF + 1 := by
  by_cases same : clampTo 10 10000 fE = clampTo 10 10000 fF
  · rw [loadProbe_same same, if_neg (not_not_intro same)]
    by_cases full : clampTo 10 10000 fF = 10000 <;> simp [full]
  · rw [loadProbe_apart same, if_pos same]

/-- Equal frequencies are set apart, and then the second is not what the image holds. -/
theorem loadProbe_kept : (loadProbe fE fF).2 = false ↔ (loadProbe fE fF).1.1 = fE ∧ (loadProbe fE fF).1.2 = fF := by
  by_cases same : clampTo 10 10000 fE = clampTo 10 10000 fF
  · rw [loadProbe_same same]
    refine ⟨Bool.noConfusion, fun ⟨_, moved⟩ => ?_⟩
    dsimp only at moved
    rw [clampTo_eq (by decide)] at moved
    split at moved <;> omega
  · rw [loadProbe_apart same, Bool.or_eq_false_iff, bne_eq_false_iff_eq, bne_eq_false_iff_eq]

end

/-! ### Thresholds, class order, classes (R89, R118) -/

/-- CRITICAL is never kept beside a LOW that is not: what LOW - 5 lowers it from is not what the image holds. -/
theorem loadThresholds_kept {low critical : Nat} : (loadThresholds low critical).2 = false ↔
    (loadThresholds low critical).1.1 = low ∧ (loadThresholds low critical).1.2 = critical := by
  refine ⟨fun unmarked => ?_, fun ⟨keptLow, keptCritical⟩ => ?_⟩
  · by_contra changed
    rw [loadThresholds_marks (by omega)] at unmarked
    exact absurd unmarked (by decide)
  · rw [loadThresholds_low] at keptLow
    rw [loadThresholds_critical] at keptCritical
    have high := (clampTo_mem (lo := 20) (hi := 240) (by decide) low).1
    have range : clampTo 5 60 critical = critical := by
      rw [clampTo_eq (by decide)] at keptCritical ⊢
      omega
    simp only [loadThresholds, ranged, Bool.or_eq_false_iff, bne_eq_false_iff_eq]
    exact ⟨⟨keptLow, range⟩, by omega⟩

/-- The codes of a class order, lowest priority first. -/
def ClassOrder.codes (o : ClassOrder) : List Nat :=
  [o.lowest, o.middle, o.highest].map fun k => classCode (some k)

theorem loadOrder_named {a b c : Nat} (named : List.Perm [a, b, c] [1, 2, 3]) :
    (loadOrder a b c).1.codes = [a, b, c] ∧ (loadOrder a b c).2 = false := by
  have orders : ∀ x ∈ [1, 2, 3], ∀ y ∈ [1, 2, 3], ∀ z ∈ [1, 2, 3], List.Perm [x, y, z] [1, 2, 3] →
      (loadOrder x y z).1.codes = [x, y, z] ∧ (loadOrder x y z).2 = false := by decide
  exact orders a (named.subset (by simp)) b (named.subset (by simp)) c (named.subset (by simp)) named

theorem loadOrder_default {a b c : Nat} (unnamed : ¬ List.Perm [a, b, c] [1, 2, 3]) :
    loadOrder a b c = (⟨.amenity, .vendor, .showClass⟩, true) := by
  unfold loadOrder
  split
  case h_7 => rfl
  all_goals exact absurd (by decide) unnamed

theorem loadOrder_kept {a b c : Nat} : (loadOrder a b c).2 = false ↔ (loadOrder a b c).1.codes = [a, b, c] := by
  by_cases named : List.Perm [a, b, c] [1, 2, 3]
  · obtain ⟨codes, mark⟩ := loadOrder_named named
    simp only [codes, mark]
  · rw [loadOrder_default named]
    refine ⟨Bool.noConfusion, fun same => absurd ?_ named⟩
    rw [← same]
    decide

theorem classOfCode?_code {n : Nat} {k : FeederClass} (h : classOfCode? n = some k) : classCode (some k) = n := by
  unfold classOfCode? at h
  split at h <;> cases h <;> rfl

theorem classOfCode?_none {n : Nat} : classOfCode? n = none ↔ n < 1 ∨ 4 < n := by
  unfold classOfCode?
  split <;> simp_all
  omega

theorem loadClass_defined {fitted : Bool} {n : Nat} (h1 : 1 ≤ n) (h4 : n ≤ 4) :
    classCode (some (loadClass fitted n).1) = n := by
  unfold loadClass
  split
  next k named => exact classOfCode?_code named
  next unnamed => have := classOfCode?_none.mp unnamed; omega

theorem loadClass_undefined {fitted : Bool} {n : Nat} (h : n < 1 ∨ 4 < n) :
    loadClass fitted n = (.protectedClass, fitted) := by
  simp [loadClass, classOfCode?_none.mpr h]

/-- The class of a feeder that is not fitted has no meaning and sets no mark (log 34). -/
theorem loadClass_kept {fitted : Bool} {n : Nat} : (loadClass fitted n).2 = false ↔
    (fitted = true → classCode (some (loadClass fitted n).1) = n) := by
  by_cases range : n < 1 ∨ 4 < n
  · rw [loadClass_undefined range]
    have : classCode (some .protectedClass) ≠ n := by simp only [classCode]; omega
    simp [this]
  · have unmarked : (loadClass fitted n).2 = false := by
      unfold loadClass
      split
      next => rfl
      next unnamed => exact absurd (classOfCode?_none.mp unnamed) range
    simp [unmarked, loadClass_defined (fitted := fitted) (n := n) (by omega) (by omega)]

/-! ### Tariff bands (R148, R149) -/

section
variable {p : List Byte} {i : Nat}

theorem standingPerSecond_eq (h : Nat) : standingPerSecond h = (500 * h + 9) / 18 := by
  simp only [standingPerSecond, roundDiv]
  congr 1
  omega

theorem loadBand_unused (h : fieldAt p (96 + 8 * i) 2 = 65535) : loadBand p i = (.blank, false) := if_pos h

theorem loadBand_used (h : fieldAt p (96 + 8 * i) 2 ≠ 65535) : (loadBand p i).1 =
    ⟨true, min 1439 (fieldAt p (96 + 8 * i) 2), min 999 (fieldAt p (96 + 8 * i + 2) 2),
      fieldAt p (96 + 8 * i + 4) 2, fieldAt p (96 + 8 * i + 6) 2, (500 * fieldAt p (96 + 8 * i + 6) 2 + 9) / 18⟩ := by
  simp only [loadBand, if_neg h, ranged, clampTo_zero, standingPerSecond_eq]

theorem loadBand_inUse : (loadBand p i).1.inUse = true ↔ fieldAt p (96 + 8 * i) 2 ≠ 65535 := by
  by_cases h : fieldAt p (96 + 8 * i) 2 = 65535
  · simp [loadBand_unused h, h, Band.blank]
  · simp [loadBand_used h, h]

theorem loadBand_kept (h : fieldAt p (96 + 8 * i) 2 ≠ 65535) : (loadBand p i).2 = false ↔
    (loadBand p i).1.start = fieldAt p (96 + 8 * i) 2 ∧ (loadBand p i).1.m = fieldAt p (96 + 8 * i + 2) 2 := by
  simp only [loadBand, if_neg h, Bool.or_eq_false_iff, ranged_kept]

end

section
variable {p : List Byte}

/-- The place of a band in the image. -/
def bandPlace (n : FeederId) : Nat := n.index - 1

/-- A band of the image that is in use. -/
def BandUsed (p : List Byte) (n : FeederId) : Prop := fieldAt p (96 + 8 * bandPlace n) 2 ≠ 65535

/-- With a band in use the four are taken as they stand, and each sets its own mark. -/
theorem loadBands_some (oneUsed : ∃ n, BandUsed p n) :
    (∀ n, (loadBands p).1.get n = (loadBand p (bandPlace n)).1) ∧
      ((loadBands p).2 = false ↔ ∀ n, (loadBand p (bandPlace n)).2 = false) := by
  have inUse : ((loadBand p 0).1.inUse || (loadBand p 1).1.inUse || (loadBand p 2).1.inUse ||
      (loadBand p 3).1.inUse) = true := by
    obtain ⟨n, used⟩ := oneUsed
    have := loadBand_inUse.mpr used
    cases n <;> simp_all [bandPlace, FeederId.index]
  have asTheyStand : loadBands p = loadQuad fun n => loadBand p (bandPlace n) := if_pos inUse
  rw [asTheyStand]
  exact ⟨loadQuad_get _, loadQuad_kept⟩

/-- With no band in use the default one stands, which sets the mark (R148). -/
theorem loadBands_none (unused : ∀ n, ¬ BandUsed p n) :
    loadBands p = (⟨⟨true, 0, 100, 0, 0, 0⟩, .blank, .blank, .blank⟩, true) := by
  have blank (n : FeederId) : loadBand p (bandPlace n) = (.blank, false) := loadBand_unused (not_not.mp (unused n))
  have b1 := blank .f1
  have b2 := blank .f2
  have b3 := blank .f3
  have b4 := blank .f4
  simp only [bandPlace, FeederId.index, Nat.reduceSub] at b1 b2 b3 b4
  simp [loadBands, b1, b2, b3, b4, Band.blank]

theorem loadBands_kept : (loadBands p).2 = false ↔ (∃ n, BandUsed p n) ∧ ∀ n, BandUsed p n →
    ((loadBands p).1.get n).start = fieldAt p (96 + 8 * bandPlace n) 2 ∧
      ((loadBands p).1.get n).m = fieldAt p (96 + 8 * bandPlace n + 2) 2 := by
  by_cases oneUsed : ∃ n, BandUsed p n
  · obtain ⟨get, kept⟩ := loadBands_some oneUsed
    rw [kept]
    refine ⟨fun all => ⟨oneUsed, fun n used => ?_⟩, fun ⟨_, all⟩ n => ?_⟩
    · rw [get]
      exact (loadBand_kept used).mp (all n)
    · by_cases used : BandUsed p n
      · exact (loadBand_kept used).mpr (get n ▸ all n used)
      · rw [loadBand_unused (not_not.mp used)]
  · rw [loadBands_none (not_exists.mp oneUsed)]
    exact ⟨Bool.noConfusion, fun ⟨used, _⟩ => absurd used oneUsed⟩

end

/-! ### The aux table -/

theorem loadAux_getD (p : List Byte) {k : Nat} (hk : k < 8) :
    (loadAux p).getD k 0 = (byteAt p (128 + k)).setWidth 6 := by
  simp only [loadAux, byteAt, List.getD_eq_getElem?_getD, List.getElem?_map, List.getElem?_take, hk, if_true,
    List.getElem?_drop]
  cases p[128 + k]? <;> rfl

/-! ### O9 -/

theorem imageUsable_station {p : List Byte} (usable : imageUsable p = true) :
    1 ≤ fieldAt p 0 1 ∧ fieldAt p 0 1 ≤ 27 := by
  simp only [imageUsable, Bool.and_eq_true, decide_eq_true_eq] at usable
  obtain ⟨⟨-, low⟩, high⟩ := usable
  exact ⟨low, high⟩

theorem forall_channel {P : Channel → Prop} : (∀ c, P c) ↔ P .se ∧ P .bf ∧ P .ff ∧ P .lp ∧ ∀ n, P (.f n) :=
  ⟨fun h => ⟨h _, h _, h _, h _, fun _ => h _⟩, fun ⟨se, bf, ff, lp, f⟩ c => by
    cases c with
    | f n => exact f n
    | _ => assumption⟩

/-- Settles O9: each field by the lemma of its part of the image, and CONFIG CLAMPED as their marks joined. -/
theorem configurationIsClampedIntoRange : Obligations.ConfigurationIsClampedIntoRange := by
  intro p usable g raw near place listed codes orderCodes clsCode band used e f
  obtain ⟨low, high⟩ := imageUsable_station usable
  have spot (c : Channel) : place c = 13 + 6 * channelPlace c := by cases c <;> rfl
  have chan (c : Channel) : g.chan c = (loadChan p (channelPlace c)).1 := loadConfig_chan p c
  have cls (n : FeederId) : g.cls.get n = (loadClass (g.fitted.get n) (clsCode n)).1 := loadQuad_get _ n
  have tenant (n : FeederId) : g.tenant.get n = (loadTenant (raw (82 + 2 * n.index) 2)).1 := loadQuad_get _ n
  have band_taken (oneUsed : ∃ n, used n) (n : FeederId) : g.bands.get n = (loadBand p (bandPlace n)).1 :=
    (loadBands_some oneUsed).1 n
  refine ⟨rfl, low, high, clampTo_eq (by decide) _, rfl, rfl, rfl, Quad.get_ofFn _,
    congrArg (· / 100 * 100) (clampTo_eq (by decide) _), clampTo_eq (by decide) _, clampTo_eq (by decide) _,
    loadProbe_first.trans (clampTo_eq (by decide) _), ?second, fun c => ?channel, clampTo_eq (by decide) _,
    clampTo_eq (by decide) _, clampTo_eq (by decide) _, clampTo_eq (by decide) _, clampTo_eq (by decide) _,
    clampTo_eq (by decide) _, clampTo_eq (by decide) _, clampTo_eq (by decide) _, clampTo_zero _ _, clampTo_zero _ _,
    clampTo_eq (by decide) _, rfl, listedBelow_spec 1 _ _ (by decide), fun named => (loadOrder_named named).1,
    fun unnamed => congrArg (fun x => x.1.codes) (loadOrder_default unnamed),
    fun n => (tenant n).trans (clampTo_zero _ _), fun n => ⟨fun ⟨h1, h4⟩ => ?_, fun out => ?_⟩,
    fun n inUse => (band_taken ⟨n, inUse⟩ n).trans (loadBand_used inUse), fun oneUsed n unused => ?_,
    fun unused => ?none, fun k hk => loadAux_getD p hk, ?kept⟩
  case second =>
    have second : g.fF = _ := loadProbe_second
    simp only [clampTo_eq (show 10 ≤ 10000 by decide)] at second
    exact second
  case channel =>
    rw [chan, spot]
    exact ⟨clampTo_eq (by decide) _, clampTo_eq (by decide) _, listedBelow_spec 1 _ _ (by decide),
      clampTo_eq (by decide) _⟩
  · rw [cls]
    exact loadClass_defined h1 h4
  · rw [cls, loadClass_undefined out]
  · have idle : loadBand p (bandPlace n) = (.blank, false) := loadBand_unused (not_not.mp unused)
    rw [band_taken oneUsed n, idle]
    rfl
  case none =>
    have bands : g.bands = _ := congrArg Prod.fst (loadBands_none unused)
    rw [bands]
    exact ⟨rfl, fun n other => by cases n <;> first | rfl | exact absurd rfl other⟩
  case kept =>
    simp only [loadConfig, Bool.or_eq_false_iff, ranged_kept, taken_kept, loadProbe_kept, loadThresholds_kept,
      loadOrder_kept, loadQuad_kept, loadBands_kept, loadChan_kept, loadClass_kept, loadTenant, forall_channel,
      spot, chan, tenant, cls, and_assoc]
    exact Iff.rfl

end Sys2Proof.Machine
end

section
/-! SUPPORT. A start that nothing cuts off: what its steps keep, and the state it ends in (O7). -/

namespace Sys2Proof.Machine

/-! ### The LC stays enabled (R174) -/

section
variable (l : Lc) (n : Nat)

@[simp] theorem kick_enabled : (kick l n).enabled = l.enabled := rfl

@[simp] theorem offerFrame_enabled (g : TxFrame) : (offerFrame l n g).1.enabled = l.enabled := by
  simp only [offerFrame]
  (repeat' split) <;> rfl

@[simp] theorem offerPart_enabled (a : Answer) : (offerPart l n a).1.enabled = l.enabled := by
  simp only [offerPart]
  (repeat' split) <;> simp

@[simp] theorem giveAnswer_enabled (ask : Ask) (r : Result) (data : List Byte) :
    (giveAnswer l n ask r data).1.enabled = l.enabled := offerPart_enabled _ _ _

@[simp] theorem frameLeft_enabled (f : TxFrame) : (frameLeft l n f).enabled = l.enabled := by
  unfold frameLeft
  split
  · rfl
  · have ready (k : Nat) : (if l.restart = .waiting k then { l with restart := .ready } else l).enabled = l.enabled := by
      split <;> rfl
    dsimp only
    (repeat' split) <;> simp

@[simp] theorem accessDone_enabled : (accessDone l).enabled = l.enabled := by
  unfold accessDone
  (repeat' split) <;> rfl

@[simp] theorem frameSent_enabled : (frameSent l n).enabled = l.enabled := by
  unfold frameSent
  split <;> simp

@[simp] theorem collide_enabled : (collide l n).enabled = l.enabled := by
  unfold collide
  (repeat' split) <;> simp

@[simp] theorem backoffEnd_enabled : (backoffEnd l n).enabled = l.enabled := by
  unfold backoffEnd
  split <;> rfl

@[simp] theorem startBit_keepsEnabled : (startBit l n).enabled = l.enabled := by
  unfold startBit
  split <;> rfl

@[simp] theorem setDuplicate_enabled : (setDuplicate l n).1.enabled = l.enabled := by
  unfold setDuplicate
  split <;> rfl

@[simp] theorem takeTool_enabled (ask : Ask) (k : SubKind) (params : List Byte) :
    (takeTool l n ask k params).1.enabled = l.enabled := by
  unfold takeTool
  split <;> simp

variable (s : State) (h : Header) (kind : Byte) (payload : List Byte)

@[simp] theorem toolCommand_enabled : (toolCommand l s h payload).1.enabled = l.enabled := by
  unfold toolCommand
  (repeat' split) <;> simp

@[simp] theorem dispatchFrame_enabled : (dispatchFrame l s h kind payload).1.enabled = l.enabled := by
  unfold dispatchFrame
  (repeat' split) <;> simp

@[simp] theorem frameEnd_enabled : (frameEnd l s h kind payload).1.enabled = l.enabled := by
  unfold frameEnd
  (repeat' split) <;> simp

@[simp] theorem rawEnd_enabled (bits : List Bool) : (rawEnd l s bits).1.enabled = l.enabled := by
  unfold rawEnd
  (repeat' split) <;> simp

end

theorem lcHandle_enabled (m : LcMsg) (s : State) : (lcHandle m s).1.enabled = s.lc.enabled := by
  cases m with
  | collision place readback =>
      simp only [lcHandle, quiet_fst]
      split <;> simp
  | _ => simp [lcHandle]

@[simp] theorem deliver_enabled (r : Report) (s : State) : (deliver r s).1.lc.enabled = s.lc.enabled := by
  cases r with
  | lc m => exact lcHandle_enabled m s
  | _ => rfl

@[simp] theorem take_enabled (rs : List Report) (s : State) : (s.take rs).lc.enabled = s.lc.enabled :=
  settle_keeps (·.lc.enabled) deliver_enabled _ rs s

/-! ### What the steps keep -/

/-- What a start takes from the image and the store, and the commands that wait, as one value. -/
abbrev Settings := Cfg × Bool × Bool × List Instr

def State.settings (s : State) : Settings :=
  (s.cfg, s.configClamped, s.retainedDamaged, s.pending)

@[simp] theorem take_settings (rs : List Report) (s : State) : (s.take rs).settings = s.settings := by
  simp [State.settings]

section
variable {inp : StartInputs} {s : State} {n : Nat}

/-- From step 4 on they stand. -/
theorem startStep_settings (late : 4 ≤ n) : (startStep n inp s).settings = s.settings := by
  unfold startStep
  split
  iterate 3 omega
  · rfl
  · rfl
  iterate 4 exact take_settings _ _
  · rfl

theorem startStep_phase (late : 4 ≤ n) :
    (startStep n inp s).phase = s.phase ∨ ∃ k, (startStep n inp s).phase = .starting k := by
  unfold startStep
  split
  iterate 3 omega
  · exact .inl rfl
  · exact .inl rfl
  · exact .inl (take_phase _ _)
  · exact .inl (take_phase _ _)
  · exact .inr ⟨8, take_phase _ _⟩
  · exact .inr ⟨9, take_phase _ _⟩
  · exact .inl rfl

/-- Step 8 enables the LC, and no later step takes that back. -/
theorem startStep_enabled (late : 4 ≤ n) (h : n ≠ 8 → s.lc.enabled = true) :
    (startStep n inp s).lc.enabled = true := by
  unfold startStep
  split
  iterate 3 omega
  · exact h (by decide)
  · exact h (by decide)
  · exact (take_enabled _ _).trans (h (by decide))
  · exact (take_enabled _ _).trans (h (by decide))
  · exact take_enabled _ _
  · exact (take_enabled _ _).trans (h (by decide))
  · exact h (by assumption)

/-- What holds of a start that nothing cuts off when step `n` of it, from step 3 on, is through. -/
structure UnderWay (v : Settings) (n : Nat) (s : State) : Prop where
  phase : s.phase = .starting n
  settings : s.settings = v
  enabled : 8 ≤ n → s.lc.enabled = true

theorem whole_of_none (h : inp.abandonAfter = none) (n : Nat) : abandonedBefore inp n = false := by
  simp [abandonedBefore, h]

theorem runStep_underWay {v : Settings} (whole : inp.abandonAfter = none) (late : 3 ≤ n)
    (h : UnderWay v n s) : UnderWay v (n + 1) (runStep inp s (n + 1)) := by
  have going : s.phase ≠ .unusable := by simp [h.phase]
  have goesOn : (startStep (n + 1) inp s).phase ≠ .unusable := by
    obtain same | ⟨k, later⟩ := startStep_phase (inp := inp) (s := s) (n := n + 1) (by omega)
    · rwa [same]
    · simp [later]
  rw [runStep_usable going (whole_of_none whole _) goesOn]
  refine ⟨take_phase _ _, ?_, fun eight => ?_⟩
  · rw [take_settings, ← h.settings]
    exact startStep_settings (by omega)
  · rw [take_enabled]
    exact startStep_enabled (by omega) fun other => h.enabled (by omega)

/-! ### The first three steps -/

/-- The state of a start when its first three steps are through: the image loaded, the records checked. -/
def State.loaded (s : State) (image : List Byte) : State :=
  { stepRecords (stepConfig (s.fresh (.starting 1)) image) with phase := .starting 3 }

theorem stepConfig_usable {image : List Byte} (usable : imageUsable image = true) (s : State) :
    stepConfig s image =
      { s with
        cfg := (loadConfig image).1, configClamped := (loadConfig image).2
        lc := { s.lc with prng := Config.prngSeed (loadConfig image).1.station } } := by
  simp [stepConfig, usable]

theorem runStep_loaded (usable : imageUsable inp.image = true) (whole : inp.abandonAfter = none) (s : State) :
    [1, 2, 3].foldl (runStep inp) (s.fresh (.starting 0)) = s.loaded inp.image := by
  have phase : (stepConfig (s.fresh (.starting 1)) inp.image).phase = .starting 1 := by
    rw [stepConfig_usable usable]; rfl
  have silent : (stepConfig (s.fresh (.starting 1)) inp.image).lc.enabled = false := by
    rw [stepConfig_usable usable]; rfl
  have second : runStep inp (s.fresh (.starting 1)) 2 =
      { stepConfig (s.fresh (.starting 1)) inp.image with phase := .starting 2 } :=
    runStep_early (s := s.fresh (.starting 1)) nofun (whole_of_none whole 2) (by decide) (phase.trans_ne nofun) silent
  have third : runStep inp { stepConfig (s.fresh (.starting 1)) inp.image with phase := .starting 2 } 3 =
      s.loaded inp.image :=
    runStep_early (s := { stepConfig (s.fresh (.starting 1)) inp.image with phase := .starting 2 }) nofun
      (whole_of_none whole 3) (by decide) nofun silent
  rw [List.foldl_cons, List.foldl_cons, List.foldl_cons, List.foldl_nil, runStep_one s (whole_of_none whole 1), second,
    third]

theorem loaded_underWay {image : List Byte} (usable : imageUsable image = true) (s : State) :
    UnderWay ((loadConfig image).1, (loadConfig image).2, s.store.anyDamaged, s.pending) 3 (s.loaded image) := by
  refine ⟨rfl, ?_, fun h => absurd h (by decide)⟩
  simp only [State.loaded, stepConfig_usable usable]
  rfl

theorem foldl_underWay {v : Settings} (whole : inp.abandonAfter = none) (k : Nat)
    (late : 3 ≤ n) (h : UnderWay v n s) : UnderWay v (n + k) ((List.range' (n + 1) k).foldl (runStep inp) s) := by
  induction k generalizing n s with
  | zero => exact h
  | succ k ih =>
      have := ih (Nat.le_succ_of_le late) (runStep_underWay whole late h)
      rwa [Nat.succ_add, ← Nat.add_succ] at this

/-- The state a start that nothing cuts off ends in (R176). -/
structure Running (v : Settings) (s : State) : Prop where
  phase : s.phase = .running
  settings : s.settings = v
  enabled : s.lc.enabled = true

theorem startPart_running (usable : imageUsable inp.image = true) (whole : inp.abandonAfter = none) (s : State) :
    Running ((loadConfig inp.image).1, (loadConfig inp.image).2, s.store.anyDamaged, s.pending)
      (startPart inp s) := by
  have ten := foldl_underWay whole 7 (Nat.le_refl 3) (loaded_underWay usable s)
  have steps : stepNumbers.foldl (runStep inp) (s.fresh (.starting 0)) =
      (List.range' 4 7).foldl (runStep inp) (s.loaded inp.image) := by
    rw [← runStep_loaded usable whole, ← List.foldl_append]
    rfl
  rw [← steps] at ten
  have ended : startPart inp s = endOfStartUp (stepNumbers.foldl (runStep inp) (s.fresh (.starting 0))) :=
    if_pos ⟨ten.phase, by rw [whole]; rfl⟩
  rw [ended]
  exact ⟨take_phase _ _, (take_settings _ _).trans ten.settings, (take_enabled _ _).trans (ten.enabled (by decide))⟩

end

end Sys2Proof.Machine
end

section
/-! SUPPORT. Table 10-4: what a start hands to the FU and the BU, and the close of the interval found open (O7). -/

namespace Sys2Proof.Machine

/-! ### Records handed to the SR -/

/-- A record handed to the SR. -/
def Report.touches : Report → Bool
  | .sr (.touch _) => true
  | _ => false

theorem touches_iff {r : Report} : r.touches = true ↔ ∃ w, r = .sr (.touch w) := by
  refine ⟨fun h => ?_, fun ⟨w, e⟩ => e ▸ rfl⟩
  unfold Report.touches at h
  split at h
  · exact ⟨_, rfl⟩
  · cases h

/-- They move the store alone. -/
theorem take_touches {α : Type} {f : State → α} (hf : ∀ s t, f { s with store := t } = f s) {rs : List Report}
    (h : rs.all Report.touches = true) (s : State) : f (s.take rs) = f s := by
  refine settle_keeps_of Report.touches ?_ f ?_ _ rs s h
  all_goals
    intro r t hr
    obtain ⟨w, rfl⟩ := touches_iff.mp hr
  · rfl
  · exact hf t _

/-- What a run of acts leaves, without their reports. -/
theorem foldl_andThen_fst {α β : Type} (f : α → β → Act α) (l : List β) (x : Act α) :
    (l.foldl (fun y n => y.andThen fun a => f a n) x).1 = l.foldl (fun a n => (f a n).1) x.1 := by
  induction l generalizing x with
  | nil => rfl
  | cons n l ih => exact ih _

theorem postFeeder_touches (k : CloseTerms) (b : Bu) (n : FeederId) (a : FeederAcc) :
    (postFeeder k b n a).2.all Report.touches = true := by
  unfold postFeeder
  split <;> rfl

theorem postAll_touches (k : CloseTerms) (b : Bu) (accs : Quad (Option FeederAcc)) :
    (postAll k b accs).2.all Report.touches = true := by
  refine foldl_andThen_all _ (fun c n => ?_) FeederId.every _ rfl
  split
  · split
    · rfl
    · exact postFeeder_touches k c n _
  · rfl

theorem mapCode_touches (g : Cfg) (b : Bu) (n : FeederId) : (mapCode g b n).2.all Report.touches = true := by
  unfold mapCode
  dsimp only
  split
  · rfl
  · split <;> rfl

theorem restateReports_touches (old new : List Slot) : (restateReports old new).all Report.touches = true := by
  simp [restateReports, Report.touches]

theorem mapAccounts_touches (b : Bu) (g : Cfg) : (mapAccounts b g).2.all Report.touches = true :=
  foldl_andThen_all _ (mapCode_touches g) FeederId.every _ (restateReports_touches _ _)

theorem buBringUp_touches (s : State) : (buBringUp s).2.all Report.touches = true := by
  unfold buBringUp
  simp only [andThen_snd, List.all_append, Bool.and_eq_true]
  refine ⟨⟨?_, mapAccounts_touches _ _⟩, rfl⟩
  split
  · exact postAll_touches _ _ _
  · rfl

/-! ### Step 7 -/

section
variable (inp : StartInputs) (s : State)

theorem startStep_books_fu : (startStep 7 inp s).fu = fuBringUp s :=
  take_touches (f := State.fu) (fun _ _ => rfl) (buBringUp_touches _) _

theorem startStep_books_bu : (startStep 7 inp s).bu = (buBringUp s).1 :=
  take_touches (f := State.bu) (fun _ _ => rfl) (buBringUp_touches _) _

end

/-- The FU of a station with a tank, of the book and the shrink record read (R127). -/
theorem fuBringUp_fitted {s : State} (fitted : s.cfg.tankFitted = true) :
    ∃ hours threshold, fuBringUp s =
      { Fu.start with
        lots := (s.store.fuelBook.read ⟨[], 0, 0⟩).lots, overdraw := (s.store.fuelBook.read ⟨[], 0, 0⟩).overdraw
        heldPrice := (s.store.fuelBook.read ⟨[], 0, 0⟩).heldPrice
        shrinkValue := (s.store.shrink.read ⟨0, Recon.none⟩).shrinkValue
        recon := (s.store.shrink.read ⟨0, Recon.none⟩).recon, hours := hours, threshold := threshold } := by
  unfold fuBringUp
  rw [if_pos fitted]
  exact ⟨_, _, rfl⟩

theorem fuBringUp_bare {s : State} (bare : s.cfg.tankFitted = false) : fuBringUp s = Fu.start := by
  simp [fuBringUp, bare]

/-- A record that holds nothing good: the owner gets the value of Table 10-4. -/
def Rec.Lost {α : Type} (r : Rec α) : Prop := r.stored = .absent ∨ r.stored = .damaged

section
variable {α : Type} {r : Rec α} {a : α}

theorem Rec.read_good (h : r.stored = .good a) (empty : α) : r.read empty = a := by simp [Rec.read, h]

theorem Rec.read_lost (h : r.Lost) (empty : α) : r.read empty = empty := by
  rcases h with h | h <;> simp [Rec.read, h]

end

/-- The BU as its records are read, before the close and the mapping. -/
def Store.buRead (t : Store) : Bu :=
  { Bu.start with
    rate := t.rate.read 0, slots := t.slots.map readSlot, journal := t.readJournal
    postingNumber := t.postingNumber.read 0 }

theorem buBringUp_closes {s : State} {i : Interval} (h : s.store.interval.stored = .good i) : (buBringUp s).1 =
    { (mapAccounts (startClose s.store.buRead s.cfg i s.pt.clock).1 s.cfg).1 with
      interval := openInvalid s.cfg s.pt.clock } := by
  simp only [buBringUp, Store.readInterval, h]
  rfl

theorem buBringUp_opens {s : State} (h : s.store.interval.Lost) : (buBringUp s).1 =
    { (mapAccounts s.store.buRead s.cfg).1 with interval := openInvalid s.cfg s.pt.clock } := by
  rcases h with h | h
  all_goals
    simp only [buBringUp, Store.readInterval, h]
    rfl

/-! ### The close at a start (R155) -/

/-- The terms of a close at a start: SHORT INTERVAL and RATE HELD. -/
def startTerms (b : Bu) (g : Cfg) (i : Interval) (v : Nat) : CloseTerms :=
  { clock := v, band := closingBand g i, rate := b.rate, short := true, held := true, lot := i.lotChange }

/-- The postings in feeder order. -/
theorem startClose_posts (b : Bu) (g : Cfg) (i : Interval) (v : Nat) : (startClose b g i v).1 =
    FeederId.every.foldl (fun c n =>
      match i.feeders.get n with
      | some a => if a.tenant = 0 then c else (postFeeder (startTerms b g i v) c n a).1
      | none => c) b := by
  refine (foldl_andThen_fst _ FeederId.every (quiet b)).trans (List.foldl_ext _ _ _ fun c n _ => ?_)
  cases i.feeders.get n with
  | none => rfl
  | some a =>
      by_cases vacant : a.tenant = 0
      · simp [vacant]
      · simp [vacant, startTerms]

/-- Every new entry of the journal carries the terms of the close. -/
def EntriesFrom (k : CloseTerms) (b c : Bu) : Prop :=
  ∀ y ∈ c.journal, y ∈ b.journal ∨
    (y.shortInterval = k.short ∧ y.rateHeld = k.held ∧ y.endClock = k.clock ∧ y.rate = k.rate ∧ y.lotChange = k.lot)

theorem postFeeder_entriesFrom {k : CloseTerms} {b c : Bu} (h : EntriesFrom k b c) (n : FeederId) (a : FeederAcc) :
    EntriesFrom k b (postFeeder k c n a).1 := by
  unfold postFeeder
  split
  · exact h
  · intro y hy
    rcases mem_journalPut hy with old | rfl
    · exact h y old
    · exact .inr ⟨rfl, rfl, rfl, rfl, rfl⟩

theorem postAll_entriesFrom (k : CloseTerms) (b : Bu) (accs : Quad (Option FeederAcc)) :
    EntriesFrom k b (postAll k b accs).1 :=
  postAll_keeps (P := EntriesFrom k b) (fun _ n a h => postFeeder_entriesFrom h n a) (fun _ hy => .inl hy) accs

theorem closingBand_held {g : Cfg} {i : Interval} {y : BandTaken} (h : i.band = some y) : closingBand g i = y := by
  simp [closingBand, h]

theorem closingBand_taken {g : Cfg} {i : Interval} {y : BandTaken} (h : i.band = none)
    (taken : takeBand g i.openClock = some y) : closingBand g i = y := by
  simp [closingBand, h, taken]

end Sys2Proof.Machine
end

section
/-! SUPPORT. The slot a tenant code finds (R154), and the accounts mapped to a configuration (R153, R154; O7). -/

namespace Sys2Proof.Machine

/-! ### The oldest dormant slot (R154) -/

/-- The place of a slot's last posting in time, one that never posted before all others. -/
def Slot.lastPosted (x : Slot) : Nat :=
  match x.lastClock with
  | none => 0
  | some m => m + 1

theorem olderSlot_iff (x y : Slot) : olderSlot x y = true ↔ x.lastPosted < y.lastPosted := by
  unfold olderSlot Slot.lastPosted
  cases x.lastClock <;> cases y.lastClock <;> simp

theorem lastPosted_lt (x y : Slot) : x.lastPosted < y.lastPosted ↔
    (x.lastClock = none ∧ y.lastClock.isSome = true) ∨
      ∃ m n, x.lastClock = some m ∧ y.lastClock = some n ∧ m < n := by
  unfold Slot.lastPosted
  cases x.lastClock <;> cases y.lastClock <;> simp

/-- A slot of the list that holds a code no longer configured. -/
def Dormant (l : List Slot) (i : Nat) (x : Slot) : Prop := l[i]? = some x ∧ x.tenant ≠ 0 ∧ x.status = .dormant

/-- Of two slots by their places: the older one, and of equal ones the one that comes first. -/
def Ahead (i : Nat) (x : Slot) (j : Nat) (y : Slot) : Prop :=
  x.lastPosted < y.lastPosted ∨ (¬ y.lastPosted < x.lastPosted ∧ i < j)

/-- The choice among the slots before place `k`. -/
def OldestBefore (l : List Slot) (k : Nat) : Option (Nat × Slot) → Prop
  | none => ∀ j y, j < k → ¬ Dormant l j y
  | some (i, x) => Dormant l i x ∧ i < k ∧ ∀ j y, j < k → Dormant l j y → j ≠ i → Ahead i x j y

/-- One place looked at in the search for the oldest dormant slot. -/
def oldestStep (l : List Slot) (best : Option (Nat × Slot)) (i : Nat) : Option (Nat × Slot) :=
  match l[i]? with
  | some x =>
      if x.tenant ≠ 0 ∧ x.status = .dormant then
        match best with
        | some (_, y) => if olderSlot x y then some (i, x) else best
        | none => some (i, x)
      else best
  | none => best

theorem oldestDormant_eq (l : List Slot) :
    oldestDormant l = ((List.range l.length).foldl (oldestStep l) none).map Prod.fst := rfl

section
variable {l : List Slot} {k : Nat} {best : Option (Nat × Slot)}

/-- A place with no dormant slot changes nothing. -/
theorem OldestBefore.skip (h : OldestBefore l k best) (idle : ∀ y, ¬ Dormant l k y) : OldestBefore l (k + 1) best := by
  have before {j : Nat} {y : Slot} (hj : j < k + 1) (hy : Dormant l j y) : j < k := by
    refine Nat.lt_of_le_of_ne (Nat.le_of_lt_succ hj) ?_
    rintro rfl
    exact idle y hy
  match best with
  | none => exact fun j y hj hy => h j y (before hj hy) hy
  | some (i, x) =>
      obtain ⟨dormant, placed, first⟩ := h
      exact ⟨dormant, Nat.lt_succ_of_lt placed, fun j y hj hy => first j y (before hj hy) hy⟩

theorem oldestStep_first {x : Slot} (hx : Dormant l k x) : oldestStep l none k = some (k, x) := by
  obtain ⟨placed, dormant⟩ := hx
  simp [oldestStep, placed, dormant]

theorem oldestStep_next {i : Nat} {x y : Slot} (hx : Dormant l k x) :
    oldestStep l (some (i, y)) k = if olderSlot x y then some (k, x) else some (i, y) := by
  obtain ⟨placed, dormant⟩ := hx
  simp [oldestStep, placed, dormant]

theorem oldestStep_skip (idle : ∀ y, ¬ Dormant l k y) : oldestStep l best k = best := by
  unfold oldestStep
  split
  next x hx => exact if_neg fun dormant => idle x ⟨hx, dormant⟩
  next => rfl

/-- A dormant slot is chosen when it is the first one, or older than the choice so far. -/
theorem OldestBefore.next {x : Slot} (h : OldestBefore l k best) (hx : Dormant l k x) :
    OldestBefore l (k + 1) (oldestStep l best k) := by
  match best with
  | none =>
      rw [oldestStep_first hx]
      refine ⟨hx, Nat.lt_succ_self k, fun j y hj hy other => absurd hy (h j y ?_)⟩
      omega
  | some (i, z) =>
      obtain ⟨dormant, placed, first⟩ := h
      rw [oldestStep_next hx]
      split
      next older =>
        rw [olderSlot_iff] at older
        refine ⟨hx, Nat.lt_succ_self k, fun j y hj hy other => .inl ?_⟩
        by_cases same : j = i
        · subst same
          cases hy.1.symm.trans dormant.1
          exact older
        · have := first j y (by omega) hy same
          unfold Ahead at this
          omega
      next newer =>
        rw [olderSlot_iff] at newer
        refine ⟨dormant, Nat.lt_succ_of_lt placed, fun j y hj hy other => ?_⟩
        by_cases last : j = k
        · subst last
          cases hy.1.symm.trans hx.1
          exact .inr ⟨newer, placed⟩
        · exact first j y (by omega) hy other

theorem OldestBefore.step (h : OldestBefore l k best) : OldestBefore l (k + 1) (oldestStep l best k) := by
  by_cases dormant : ∃ x, Dormant l k x
  · obtain ⟨x, hx⟩ := dormant
    exact h.next hx
  · have idle := not_exists.mp dormant
    rw [oldestStep_skip idle]
    exact h.skip idle

theorem foldl_oldestBefore (l : List Slot) (k : Nat) :
    OldestBefore l k ((List.range k).foldl (oldestStep l) none) := by
  induction k with
  | zero => exact fun j _ hj => absurd hj (Nat.not_lt_zero j)
  | succ k ih =>
      rw [List.range_succ, List.foldl_append]
      exact ih.step

theorem Dormant.lt_length {i : Nat} {x : Slot} (h : Dormant l i x) : i < l.length :=
  (List.getElem?_eq_some_iff.mp h.1).1

/-- The slot found is dormant and ahead of every other dormant one. -/
theorem oldestDormant_cases (l : List Slot) :
    (oldestDormant l = none ∧ ∀ i x, ¬ Dormant l i x) ∨
      ∃ i x, oldestDormant l = some i ∧ Dormant l i x ∧ ∀ j y, Dormant l j y → j ≠ i → Ahead i x j y := by
  have chosen := foldl_oldestBefore l l.length
  rw [oldestDormant_eq]
  match (List.range l.length).foldl (oldestStep l) none, chosen with
  | none, idle => exact .inl ⟨rfl, fun i x h => idle i x h.lt_length h⟩
  | some (i, x), ⟨dormant, _, first⟩ => exact .inr ⟨i, x, rfl, dormant, fun j y h => first j y h.lt_length h⟩

theorem oldestDormant_first {i : Nat} {x : Slot} (hx : Dormant l i x)
    (first : ∀ j y, Dormant l j y → j ≠ i → Ahead i x j y) : oldestDormant l = some i := by
  obtain ⟨-, idle⟩ | ⟨j, y, found, hy, ahead⟩ := oldestDormant_cases l
  · exact absurd hx (idle i x)
  · by_cases same : j = i
    · rw [found, same]
    · have one := first j y hy same
      have two := ahead i x hx (Ne.symm same)
      unfold Ahead at one two
      omega

theorem oldestDormant_none (idle : ∀ i x, ¬ Dormant l i x) : oldestDormant l = none := by
  obtain ⟨nothing, -⟩ | ⟨j, y, -, hy, -⟩ := oldestDormant_cases l
  · exact nothing
  · exact absurd hy (idle j y)

end

/-! ### The slot for a code (R154) -/

section
variable {l : List Slot} {c i : Nat}

theorem findSlot_held {x : Slot} (held : (l.findIdx? fun x => x.tenant == c) = some i) (hx : l[i]? = some x) :
    findSlot l c = some (i, x) := by simp [findSlot, held, hx]

theorem findSlot_marked (held : (l.findIdx? fun x => x.tenant == c) = none)
    (marked : (l.findIdx? fun x => x.tenant == 0 && x.reopened) = some i) :
    findSlot l c = some (i, Slot.opened c true) := by simp only [findSlot, held, marked]

theorem findSlot_free (held : (l.findIdx? fun x => x.tenant == c) = none)
    (marked : (l.findIdx? fun x => x.tenant == 0 && x.reopened) = none)
    (free : (l.findIdx? fun x => x.tenant == 0) = some i) :
    findSlot l c = some (i, Slot.opened c false) := by simp only [findSlot, held, marked, free]

theorem findSlot_oldest (held : (l.findIdx? fun x => x.tenant == c) = none)
    (marked : (l.findIdx? fun x => x.tenant == 0 && x.reopened) = none)
    (free : (l.findIdx? fun x => x.tenant == 0) = none) :
    findSlot l c = (oldestDormant l).map fun i => (i, Slot.opened c false) := by
  simp only [findSlot, held, marked, free]

/-- A code that no slot holds takes a free or dormant slot, if there is one. -/
theorem findSlot_new (new : ∀ x ∈ l, x.tenant ≠ c) :
    (findSlot l c = none ∧ ∀ x ∈ l, x.tenant ≠ 0 ∧ x.status ≠ .dormant) ∨
      ∃ i old reopened, findSlot l c = some (i, Slot.opened c reopened) ∧ l[i]? = some old ∧
        (old.tenant = 0 ∨ old.status = .dormant) := by
  have held : (l.findIdx? fun x => x.tenant == c) = none := List.findIdx?_eq_none_iff.mpr (by simpa using new)
  cases marked : l.findIdx? fun x => x.tenant == 0 && x.reopened with
  | some i =>
      obtain ⟨inside, hi, -⟩ := List.findIdx?_eq_some_iff_getElem.mp marked
      simp only [Bool.and_eq_true, beq_iff_eq] at hi
      exact .inr ⟨i, _, true, findSlot_marked held marked, List.getElem?_eq_getElem inside, .inl hi.1⟩
  | none =>
      cases free : l.findIdx? fun x => x.tenant == 0 with
      | some i =>
          obtain ⟨inside, hi, -⟩ := List.findIdx?_eq_some_iff_getElem.mp free
          exact .inr ⟨i, _, false, findSlot_free held marked free, List.getElem?_eq_getElem inside,
            .inl (beq_iff_eq.mp hi)⟩
      | none =>
          have used : ∀ x ∈ l, x.tenant ≠ 0 := by simpa using List.findIdx?_eq_none_iff.mp free
          have oldest := findSlot_oldest held marked free
          obtain ⟨nothing, idle⟩ | ⟨i, x, found, ⟨hx, -, dormant⟩, -⟩ := oldestDormant_cases l
          · refine .inl ⟨by rw [oldest, nothing]; rfl, fun x hx => ⟨used x hx, fun dormant => ?_⟩⟩
            obtain ⟨i, hi⟩ := List.getElem?_of_mem hx
            exact idle i x ⟨hi, used x hx, dormant⟩
          · exact .inr ⟨i, x, false, by rw [oldest, found]; rfl, hx, .inr dormant⟩

end

/-! ### The mapping (R153, R154) -/

section
variable {g : Cfg} {b c d : Bu} {n : FeederId}

theorem bills_of_fitted (fitted : g.fitted.get n = true) (coded : g.tenant.get n ≠ 0) :
    g.bills (g.tenant.get n) = true := by
  simp only [Cfg.bills, coded, ne_eq, not_false_eq_true, decide_true, Bool.true_and, List.any_eq_true,
    Bool.and_eq_true, beq_iff_eq]
  exact ⟨n, FeederId.mem_every n, fitted, rfl⟩

theorem bills_zero : g.bills 0 = false := by simp [Cfg.bills]

/-- A slot is LIVE exactly where its code is configured. -/
def Stated (g : Cfg) (b : Bu) : Prop := ∀ x ∈ b.slots, x.status = .live ↔ g.bills x.tenant = true

/-- What mapping further codes makes of the accounts: the slots of configured codes stay as they are. -/
structure MapsTo (g : Cfg) (b c : Bu) : Prop where
  stated : Stated g c
  rate : c.rate = b.rate
  journal : c.journal = b.journal
  postingNumber : c.postingNumber = b.postingNumber
  length : c.slots.length = b.slots.length
  kept : ∀ (i : Nat) (x : Slot), b.slots[i]? = some x → g.bills x.tenant = true → c.slots[i]? = some x

theorem MapsTo.refl (h : Stated g b) : MapsTo g b b := ⟨h, rfl, rfl, rfl, rfl, fun _ _ hx _ => hx⟩

theorem MapsTo.trans (h : MapsTo g b c) (k : MapsTo g c d) : MapsTo g b d where
  stated := k.stated
  rate := k.rate.trans h.rate
  journal := k.journal.trans h.journal
  postingNumber := k.postingNumber.trans h.postingNumber
  length := k.length.trans h.length
  kept i x hx billed := k.kept i x (h.kept i x hx billed) billed

/-- A code has a slot, or every slot has a configured code. -/
def Served (g : Cfg) (b : Bu) (code : Nat) : Prop :=
  (∃ x ∈ b.slots, x.tenant = code) ∨ ∀ x ∈ b.slots, g.bills x.tenant = true

theorem Served.mapsTo {code : Nat} (h : Served g b code) (k : MapsTo g b c) (billed : g.bills code = true) :
    Served g c code := by
  rcases h with ⟨x, hx, rfl⟩ | full
  · obtain ⟨i, hi⟩ := List.getElem?_of_mem hx
    exact .inl ⟨x, List.mem_of_getElem? (k.kept i x hi billed), rfl⟩
  · refine .inr fun y hy => ?_
    obtain ⟨i, hi⟩ := List.getElem?_of_mem hy
    have inside : i < b.slots.length := k.length ▸ (List.getElem?_eq_some_iff.mp hi).1
    have old := List.getElem?_eq_getElem inside
    have billed := full _ (List.getElem_mem inside)
    rw [k.kept i _ old billed] at hi
    exact Option.some.inj hi ▸ billed

/-- A slot that is free or dormant is taken for a code of the configuration. -/
theorem mapsTo_set {i code : Nat} {old : Slot} (reopened : Bool) (h : Stated g b) (hi : b.slots[i]? = some old)
    (idle : old.tenant = 0 ∨ old.status = .dormant) (billed : g.bills code = true) :
    MapsTo g b { b with slots := b.slots.set i (Slot.opened code reopened) } := by
  have unbilled : g.bills old.tenant ≠ true := by
    rcases idle with free | dormant
    · simp [free, bills_zero]
    · intro billed
      exact absurd (((h old (List.mem_of_getElem? hi)).mpr billed).symm.trans dormant) (by decide)
  refine ⟨fun x hx => ?_, rfl, rfl, rfl, List.length_set, fun j x hx configured => ?_⟩
  · rcases List.mem_or_eq_of_mem_set hx with old | rfl
    · exact h x old
    · exact ⟨fun _ => billed, fun _ => rfl⟩
  · have other : i ≠ j := by
      rintro rfl
      exact unbilled (Option.some.inj (hi.symm.trans hx) ▸ configured)
    exact (List.getElem?_set_ne other).trans hx

/-- One code mapped. -/
theorem mapCode_mapsTo (h : Stated g b) (n : FeederId) : MapsTo g b (mapCode g b n).1 ∧
    (g.fitted.get n = true → g.tenant.get n ≠ 0 → Served g (mapCode g b n).1 (g.tenant.get n)) := by
  unfold mapCode
  dsimp only
  split
  next skipped =>
    refine ⟨.refl h, fun fitted coded => .inl ?_⟩
    simpa [fitted, coded] using skipped
  next wanted =>
    simp only [Bool.or_eq_true, Bool.not_eq_true', beq_iff_eq, List.any_eq_true, not_or, not_exists, not_and,
      Bool.not_eq_false] at wanted
    obtain ⟨⟨fitted, coded⟩, new⟩ := wanted
    have billed := bills_of_fitted fitted coded
    obtain ⟨nothing, full⟩ | ⟨i, old, reopened, found, hi, idle⟩ := findSlot_new new
    · rw [nothing]
      refine ⟨.refl h, fun _ _ => .inr fun x hx => (h x hx).mp ?_⟩
      have live := (full x hx).2
      cases status : x.status with
      | live => rfl
      | dormant => exact absurd status live
    · rw [found]
      refine ⟨mapsTo_set reopened h hi idle billed, fun _ _ => .inl ⟨Slot.opened _ reopened, ?_, rfl⟩⟩
      exact List.mem_set (List.getElem?_eq_some_iff.mp hi).1 _

/-- The codes of a list of feeders mapped, one after the other. -/
theorem foldl_mapCode (l : List FeederId) (h : Stated g b) :
    MapsTo g b (l.foldl (fun a n => (mapCode g a n).1) b) ∧
      ∀ n ∈ l, g.fitted.get n = true → g.tenant.get n ≠ 0 →
        Served g (l.foldl (fun a n => (mapCode g a n).1) b) (g.tenant.get n) := by
  induction l generalizing b with
  | nil => exact ⟨.refl h, nofun⟩
  | cons m l ih =>
      obtain ⟨first, served⟩ := mapCode_mapsTo h m
      obtain ⟨rest, others⟩ := ih first.stated
      refine ⟨first.trans rest, fun n hn fitted coded => ?_⟩
      rcases List.mem_cons.mp hn with rfl | later
      · exact (served fitted coded).mapsTo rest (bills_of_fitted fitted coded)
      · exact others n later fitted coded

/-- Every slot restated, before any code is mapped (R153). -/
def Bu.restated (b : Bu) (g : Cfg) : Bu := { b with slots := b.slots.map (Slot.restate g) }

theorem restated_stated (b : Bu) (g : Cfg) : Stated g (b.restated g) := by
  intro x hx
  obtain ⟨y, -, rfl⟩ := List.mem_map.mp hx
  cases billed : g.bills y.tenant <;> simp [Slot.restate, billed]

theorem restated_getElem? {i : Nat} {x : Slot} (hx : b.slots[i]? = some x) (billed : g.bills x.tenant = true) :
    (b.restated g).slots[i]? = some { x with status := .live } := by
  simp [Bu.restated, hx, Slot.restate, billed]

/-- The accounts mapped: every slot restated, then the codes of the feeders in ascending index. -/
theorem mapAccounts_mapsTo (b : Bu) (g : Cfg) : MapsTo g (b.restated g) (mapAccounts b g).1 ∧
    ∀ n, g.fitted.get n = true → g.tenant.get n ≠ 0 → Served g (mapAccounts b g).1 (g.tenant.get n) := by
  have same : (mapAccounts b g).1 = FeederId.every.foldl (fun a n => (mapCode g a n).1) (b.restated g) :=
    foldl_andThen_fst (mapCode g) FeederId.every _
  obtain ⟨maps, served⟩ := foldl_mapCode FeederId.every (restated_stated b g)
  rw [same]
  exact ⟨maps, fun n => served n (FeederId.mem_every n)⟩

end

end Sys2Proof.Machine
end

section
/-! SUPPORT. A start with a usable image (O7). -/

namespace Sys2Proof.Machine

/-! ### O7, clause by clause -/

/-- The part runs, its LC enabled, with what the image and the store gave it. -/
theorem Running.fields {g : Cfg} {clamped damaged : Bool} {p : List Instr} {t : State}
    (h : Running (g, clamped, damaged, p) t) : t.phase = .running ∧ t.lc.enabled = true ∧ t.cfg = g ∧
      t.configClamped = clamped ∧ t.retainedDamaged = damaged ∧ t.pending = p := by
  obtain ⟨phase, settings, enabled⟩ := h
  cases settings
  exact ⟨phase, enabled, rfl, rfl, rfl, rfl⟩

theorem start_ends (inp : StartInputs) (s : State) (usable : imageUsable inp.image = true)
    (whole : inp.abandonAfter = none) :
    let started (store : Store) (t : State) : Prop :=
      t.phase = .running ∧ t.lc.enabled = true ∧ t.cfg = (loadConfig inp.image).1 ∧
        t.configClamped = (loadConfig inp.image).2 ∧ t.retainedDamaged = store.anyDamaged ∧ t.pending = s.pending
    (∃ t, exec (.powerOn inp) s = .next t ∧ started (if s.phase = .off then s.store else s.store.cut) t) ∧
    (s.phase ≠ .off → ∃ t, exec (.resetInput inp) s = .next t ∧ started (s.store.finish s) t) ∧
    (s.isUp = true → s.lc.restart = .ready →
      ∃ t, exec (.restartHandover inp) s = .next t ∧ started (s.store.finish s) t) := by
  intro started
  refine ⟨⟨_, exec_powerOn inp s, ?_⟩, fun powered => ⟨_, exec_resetInput inp powered, ?_⟩,
    fun up ready => ⟨_, exec_restartHandover inp up ready, ?_⟩⟩
  · have ends := (startPart_running usable whole (if s.phase = .off then s else losePower s)).fields
    by_cases off : s.phase = .off
    · simp only [if_pos off] at ends ⊢
      exact ends
    · simp only [if_neg off] at ends ⊢
      exact ends
  · exact (startPart_running usable whole { s with store := s.store.finish s }).fields
  · exact (startPart_running usable whole { s with store := s.store.finish s }).fields

/-- Settles O7: a start runs through to the end of start-up, steps 3 and 7 hand over what the records hold, and the close,
the slot of a code and the mapping are each as their lemmas give them. -/
theorem usableImageStartsThePart : Obligations.UsableImageStartsThePart := by
  refine ⟨start_ends, fun inp s => ?records, fun b g i v => ?close, fun l c => ?slot, fun b g => ?mapping⟩
  case records =>
    intro x t lost
    have fu : t.fu = fuBringUp s := startStep_books_fu inp s
    have bu : t.bu = (buBringUp s).1 := startStep_books_bu inp s
    refine ⟨rfl, rfl, fun v good => Rec.read_good good 0, fun gone => Rec.read_lost gone 0, fun fitted => ?tank,
      fun bare => fu.trans (fuBringUp_bare bare), ?accounts⟩
    case tank =>
      obtain ⟨hours, threshold, up⟩ := fuBringUp_fitted fitted
      rw [fu, up]
      refine ⟨fun b good => ?_, fun gone => ?_, fun k good => ?_, fun gone => ?_, rfl, rfl, rfl, rfl, rfl, rfl, rfl, rfl⟩
      · rw [Rec.read_good good]; exact ⟨rfl, rfl, rfl⟩
      · rw [Rec.read_lost gone]; exact ⟨rfl, rfl, rfl⟩
      · rw [Rec.read_good good]; exact ⟨rfl, rfl⟩
      · rw [Rec.read_lost gone]; exact ⟨rfl, rfl⟩
    case accounts =>
      intro slotOf handed
      have slots : slotOf = readSlot := funext fun r => by rcases r with ⟨_ | _ | _, _, _⟩ <;> rfl
      have read : handed = s.store.buRead := by
        simp only [handed, slots]
        rfl
      rw [read, bu]
      exact ⟨⟨fun i good => buBringUp_closes good, fun gone => buBringUp_opens gone⟩, rfl, rfl, Quad.get_ofFn _⟩
  case close =>
    intro x k
    obtain ⟨rate, -, costPeers, -⟩ := postAll_postedFrom k b i.feeders
    refine ⟨startClose_posts b g i v, rate, costPeers, fun r hr => ?_, postAll_entriesFrom k b i.feeders,
      fun y => closingBand_held, fun y => closingBand_taken⟩
    exact touches_iff.mp (List.all_eq_true.mp (postAll_touches k b i.feeders) r hr)
  case slot =>
    intro held marked free older dormant
    refine ⟨fun i x => findSlot_held, fun i => findSlot_marked, fun i => findSlot_free,
      fun unheld unmarked used => ⟨fun i x hx first => ?_, fun idle => ?_⟩⟩
    · have ahead : ∀ j y, Dormant l j y → j ≠ i → Ahead i x j y := fun j y hy other => by
        have := first j y hy other
        simp only [older, ← lastPosted_lt] at this
        exact this
      rw [findSlot_oldest unheld unmarked used, oldestDormant_first hx ahead]
      rfl
    · rw [findSlot_oldest unheld unmarked used, oldestDormant_none idle]
      rfl
  case mapping =>
    intro y
    obtain ⟨⟨stated, rate, journal, postingNumber, length, kept⟩, served⟩ := mapAccounts_mapsTo b g
    refine ⟨rate, journal, postingNumber, length.trans (List.length_map _), fun x hx _ => stated x hx,
      fun i x hx billed => kept i _ (restated_getElem? hx billed) billed, fun n fitted coded => ?_⟩
    rcases served n fitted coded with ⟨x, hx, code⟩ | full
    · exact .inl ⟨x, hx, code, (stated x hx).mpr (code ▸ bills_of_fitted fitted coded)⟩
    · exact .inr full

end Sys2Proof.Machine
end

section
/-! SUPPORT. What a command leaves alone (O55): it tells the part a report of a kind, or a frame whose owner is told one. -/

namespace Sys2Proof.Machine

/-! ### What a frame hands over -/

section
variable {P : Report → Bool} {k : Kind} {j : SubKind} {h : Header} {tag : Byte} {p params : List Byte}

theorem takeTool_hands (owner : ∀ ask, (j.report ask params).all P = true) (l : Lc) (station : Nat) (ask : Ask) :
    (takeTool l station ask j params).2.all P = true := by
  cases j with
  | restart => rfl
  | _ => exact owner ask

theorem toolCommand_hands (owner : ∀ ask, (j.report ask params).all P = true) (l : Lc) (s : State) :
    (toolCommand l s h (j.byte :: tag :: params)).2.all P = true := by
  simp only [toolCommand, SubKind.ofByte?_byte]
  split
  · rfl
  split
  · rfl
  split
  · rfl
  split
  · rfl
  · exact takeTool_hands owner _ _ _

theorem dispatchFrame_hands (owner : (frameReport h k p).all P = true) (noTool : k ≠ .toolCommand) (l : Lc)
    (s : State) : (dispatchFrame l s h (BitVec.ofNat 8 k.code) p).2.all P = true := by
  simp only [dispatchFrame, Kind.ofCode?_code, if_neg noTool]
  split
  · rfl
  · exact owner

/-- The end of a frame hands over what its dispatch does, or tells the DU of a duplicate station (R36). -/
theorem frameEnd_hands {kind : Byte} {s : State} (duplicate : P (.du .duplicate) = true)
    (dispatched : ∀ l, (dispatchFrame l s h kind p).2.all P = true) (l : Lc) :
    (frameEnd l s h kind p).2.all P = true := by
  unfold frameEnd
  split
  · rfl
  dsimp only
  split
  · rfl
  split
  · rfl
  split
  · unfold setDuplicate
    split
    · rfl
    · simp [duplicate]
  · exact dispatched _

end

/-! ### A command that leaves a view of the state alone -/

/-- Reports of a kind leave a view of the state alone, and lead to such reports only; the LC is no part of the view. -/
structure Unmoved {α : Type} (P : Report → Bool) (view : State → α) : Prop where
  closed : ∀ r s, P r = true → (deliver r s).2.all P = true
  kept : ∀ r s, P r = true → view (deliver r s).1 = view s
  line : ∀ s l, view { s with lc := l } = view s
  duplicate : P (.du .duplicate) = true

/-- What a command first tells the part: a report of a kind, or the end of a frame whose owner is told reports of that
kind. -/
inductive Opens (P : Report → Bool) : Report → Prop
  | told {r : Report} (kind : P r = true) : Opens P r
  | frame {k : Kind} {h : Header} {p : List Byte} (noTool : k ≠ .toolCommand)
      (owner : (frameReport h k p).all P = true) : Opens P (frameOf k h p)
  | tool {k : SubKind} {h : Header} {tag : Byte} {params : List Byte}
      (owner : ∀ ask, (k.report ask params).all P = true) : Opens P (toolOf k h tag params)

namespace Unmoved

variable {α : Type} {P : Report → Bool} {view : State → α} {r : Report}

theorem of_deliver (u : Unmoved P view) (h : Opens P r) (s : State) :
    view (deliver r s).1 = view s ∧ (deliver r s).2.all P = true := by
  cases h with
  | told kind => exact ⟨u.kept r s kind, u.closed r s kind⟩
  | frame noTool owner =>
      exact ⟨u.line s _, frameEnd_hands u.duplicate (fun l => dispatchFrame_hands owner noTool l s) s.lc⟩
  | tool owner =>
      refine ⟨u.line s _, frameEnd_hands u.duplicate (fun l => ?_) s.lc⟩
      rw [dispatchFrame_toolCommand]
      exact toolCommand_hands owner l s

theorem of_run (u : Unmoved P view) (h : Opens P r) (s : State) : view (s.run [r]) = view s := by
  cases up : s.isUp with
  | false => rw [run_down up]
  | true =>
      obtain ⟨first, told⟩ := u.of_deliver h s
      rw [run_one up]
      exact (settle_keeps_of P u.closed view u.kept _ _ _ told).trans first

end Unmoved

/-! ### The two views -/

/-- What the control commands leave alone: the channels, the inputs, the fuel, the accounts, the store, the peer entries
and the clock. -/
def State.besideControl (s : State) :
    Pcu × Levels × Fu × Bu × Store × List PeerEntry × Bool × Nat × Bool × Nat × Timer × Nat :=
  (s.pcu, s.fli.inputs, s.fu, s.bu, s.store, s.pt.kept)

/-- What the commands of the books leave alone: the channels, the inputs, the peer entries and the clock. -/
def State.besideBooks (s : State) : Pcu × Levels × List PeerEntry × Bool × Nat × Bool × Timer × Nat :=
  (s.pcu, s.fli.inputs, s.pt.view)

theorem settle_one (r : Report) (s : State) : settle 1 [r] s = (deliver r s).1 := rfl

theorem control_unmoved : Unmoved Report.control State.besideControl where
  closed := control_closed
  kept r s control := by
    have only : [r].all Report.control = true := by simpa using control
    obtain ⟨pcu, fu, bu, store⟩ := settle_control_books 1 [r] s only
    have inputs := settle_control_inputs 1 [r] s only
    have pt := settle_control_pt 1 [r] s only
    rw [settle_one] at pcu fu bu store inputs pt
    simp only [State.besideControl, pcu, fu, bu, store, inputs, pt]
  line _ _ := rfl
  duplicate := rfl

theorem inner_unmoved : Unmoved Report.inner State.besideBooks where
  closed := inner_closed
  kept r s inner := by
    have only : [r].all Report.inner = true := by simpa using inner
    have pcu := settle_inner_pcu 1 [r] s only
    have inputs := settle_inner_inputs 1 [r] s only
    have pt := settle_inner_pt 1 [r] s only
    rw [settle_one] at pcu inputs pt
    simp only [State.besideBooks, pcu, inputs, pt]
  line _ _ := rfl
  duplicate := rfl

/-! ### What the commands first tell the part -/

/-- The test of a kind, evaluated command by command, read as an implication. -/
theorem of_not_or {a b : Bool} (h : (!a || b) = true) (ha : a = true) : b = true := by
  rw [ha] at h
  exact h

theorem controls_opens {c : Instr} {s t : State} (hc : c.controls = true) (ht : exec c s = .next t) :
    ∃ r, Opens Report.control r ∧ t = s.run [r] := by
  cases c with
  | powerOn inp => cases hc
  | resetInput inp => cases hc
  | powerFail => cases hc
  | restartHandover inp => cases hc
  | startIntentReceived h p | stopIntentReceived h p | deadbusClaimReceived h p | callReceived h p | offerReceived h p
  | pickReceived h p | readyReceived h p | stepReceived h p | endReceived h p | abortReceived h p
  | holdReceived h p =>
      cases ht
      refine ⟨frameOf _ h p, ?_, rfl⟩
      exact .frame nofun rfl
  | handoverRequest h tag params | handoverAbort h tag params | restart h tag params =>
      cases ht
      exact ⟨toolOf _ h tag params, .tool fun _ => rfl, rfl⟩
  | _ => cases ht; exact ⟨_, .told (of_not_or rfl hc), rfl⟩

theorem keepsBooks_opens {c : Instr} {s t : State} (hc : c.keepsBooks = true) (ht : exec c s = .next t) :
    (∃ r, Opens Report.inner r ∧ t = s.run [r]) ∨ ∃ r, t = s.run [.sr (.written r)] := by
  cases c with
  | powerOn inp => cases hc
  | resetInput inp => cases hc
  | powerFail => cases hc
  | restartHandover inp => cases hc
  | deliveryOpen h p | deliveryClose h p | visit h p | visitEnd h p | costReceived h p =>
      cases ht
      refine .inl ⟨frameOf _ h p, ?_, rfl⟩
      exact .frame nofun rfl
  | reconcile h tag params | tankQuery h tag params | statementClose h tag params | accountQuery h tag params
  | statementQuery h tag params | journalQuery h tag params =>
      cases ht
      exact .inl ⟨toolOf _ h tag params, .tool fun _ => rfl, rfl⟩
  | retainedWriteComplete r => cases ht; exact .inr ⟨r, rfl⟩
  | _ => cases ht; exact .inl ⟨_, .told (of_not_or rfl hc), rfl⟩

/-- The end of a record's write moves the store alone. -/
theorem run_written_besideBooks (r : RecordId) (s : State) :
    (s.run [.sr (.written r)]).besideBooks = s.besideBooks := by
  cases up : s.isUp with
  | false => rw [run_down up]
  | true => rw [run_one up]; rfl

/-- Settles O55: a control command opens with control reports, one of the books with inner reports, and neither kind
moves its view of the state. -/
theorem commandsLeaveTheRest : Obligations.CommandsLeaveTheRest := by
  intro c s t ht
  refine ⟨fun hc => ?control, fun hc => ?books⟩
  case control =>
    obtain ⟨r, opens, rfl⟩ := controls_opens hc ht
    simpa only [State.besideControl, Prod.mk.injEq] using control_unmoved.of_run opens s
  case books =>
    have same : t.besideBooks = s.besideBooks := by
      obtain ⟨r, opens, rfl⟩ | ⟨r, rfl⟩ := keepsBooks_opens hc ht
      · exact inner_unmoved.of_run opens s
      · exact run_written_besideBooks r s
    simpa only [State.besideBooks, Prod.mk.injEq] using same

end Sys2Proof.Machine
end

section
/-! SUPPORT. The queue of commands through a step, and the values before the first power-on (O1 to O3). -/

namespace Sys2Proof.Machine

/-! ### A step (O1) -/

theorem step_front {c : Instr} {rest : List Instr} {s : State} (front : s.pending = c :: rest) :
    step s = exec c { s with pending := rest } := by
  simp only [step, front]

theorem step_idle {s : State} (empty : s.pending = []) : step s = .next s := by
  simp only [step, empty]

/-- Settles O1, by the equation of `step` for a queue with a front. -/
theorem stepRunsTheFrontCommand : Obligations.StepRunsTheFrontCommand := fun _ _ _ front => step_front front

/-! ### The values before the first power-on (O2) -/

theorem start_get (c : Channel) : Pcu.start.get c = .start := by
  cases c with
  | f n => exact Quad.get_all _ n
  | _ => rfl

theorem start_dev (d : Device) : Fli.start.dev d = .idle := by
  cases d with
  | feeder n => exact Quad.get_all _ n
  | _ => rfl

/-- Settles O2: each unit of the reset state stands at its start value, its channels and devices as the two lemmas above
give them. -/
theorem resetHoldsTheStartValues : Obligations.ResetHoldsTheStartValues := by
  exact ⟨rfl, rfl, rfl, start_get, rfl, start_dev, rfl, rfl, rfl, rfl, rfl, rfl, rfl, rfl, rfl, rfl, rfl, rfl, rfl,
    rfl, rfl, rfl, rfl, rfl, rfl, rfl, rfl, rfl⟩

/-! ### The commands that wait (O3) -/

theorem startStep_pending (n : Nat) (inp : StartInputs) (s : State) : (startStep n inp s).pending = s.pending := by
  unfold startStep
  split
  · rfl
  · unfold stepConfig
    split <;> rfl
  iterate 3 rfl
  iterate 4 exact take_pending _ _
  · rfl

theorem runStep_pending (inp : StartInputs) (s : State) (n : Nat) : (runStep inp s n).pending = s.pending := by
  have stepped := startStep_pending n inp s
  unfold runStep
  split
  · rfl
  dsimp only
  split
  · exact stepped
  · exact (take_pending _ _).trans stepped

theorem foldl_runStep_pending (inp : StartInputs) (steps : List Nat) (s : State) :
    (steps.foldl (runStep inp) s).pending = s.pending := by
  induction steps generalizing s with
  | nil => rfl
  | cons n steps ih => exact (ih _).trans (runStep_pending inp s n)

/-- A start leaves the commands that wait, at whatever step it ends. -/
theorem startPart_pending (inp : StartInputs) (s : State) : (startPart inp s).pending = s.pending := by
  have through := foldl_runStep_pending inp stepNumbers (s.fresh (.starting 0))
  unfold startPart
  dsimp only
  split
  · exact (take_pending _ _).trans through
  · exact through

/-- No command touches the queue behind it. -/
theorem exec_pending {c : Instr} {s t : State} (ht : exec c s = .next t) : t.pending = s.pending := by
  cases hc : c.startsOrStops with
  | false =>
      obtain ⟨r, -, rfl⟩ := exec_runs hc ht
      exact run_pending _ s
  | true =>
      cases c with
      | powerOn inp =>
          cases ht
          refine (startPart_pending inp _).trans ?_
          split <;> rfl
      | resetInput inp =>
          cases ht
          split
          · rfl
          · exact startPart_pending inp _
      | powerFail => cases ht; rfl
      | restartHandover inp =>
          cases ht
          split
          · exact startPart_pending inp _
          · rfl
      | _ => cases hc

/-- Settles O3: every command answers, and neither the reports worked off nor a start moves the queue; an empty queue
idles by the equation of `step`. -/
theorem everyCommandCompletes : Obligations.EveryCommandCompletes := by
  refine ⟨fun c s => ?_, fun _ => step_idle⟩
  obtain ⟨t, ht⟩ := exec_answers c s
  exact ⟨t, ht, exec_pending ht⟩

end Sys2Proof.Machine
end
